-- ==== Sys2Proof/Word.lean ====
section
/-! DEFINITION. The words that travel on the part's two links: bytes, two-byte fields and four-byte fields. -/

namespace Sys2Proof

/-- One byte of a host message or of a station frame. -/
abbrev Byte := BitVec 8

/-- A two-byte field of a host message (R198). -/
abbrev Half := BitVec 16

/-- A four-byte field of a host message (R198). -/
abbrev Word := BitVec 32

end Sys2Proof
end

