-- ==== Sys2Proof/Config.lean ====
section
/-! DEFINITION. The values the manual leaves open: constants without a body, so that nothing can be proved of
which value they take. -/

namespace Sys2Proof.Config

/-- FREE VALUE (assumption 3). What becomes of the one store block whose write a reset or a loss of the supply
cuts short: R194 says the write "can leave that one block failing its check". The result taken modulo 3 picks
failing (0), the old contents (1) or the new contents (2). The argument is the model's own counter of free
values, so that two cut writes need not end alike. -/
opaque cutWrite : Nat → Nat

/-- FREE VALUE (assumption 4). Which of several events that have come due at one moment is taken first, where
R2 leaves the order open ("either may be taken first"). The result is read modulo the number of events that
are due. -/
opaque tieBreak : Nat → Nat

/-- FREE VALUE (assumption 15). The levels that the pins ADR1 and ADR0 have at the end of a reset with the cause COMMAND
(R183, R195), which no command brings in. -/
opaque strapLevels : Nat → BitVec 2

/-- FREE VALUE (assumption 36). The two bytes, as a number, of a flow that is too large for its two-byte field, as a
function of that flow (R125, R202). -/
opaque overflowField : Nat → Nat

end Sys2Proof.Config
end

