-- ==== Sys2Proof/Machine/Arith.lean ====
section
/-! DEFINITION. The integer arithmetic the chapters share: the rounding of R1, the clamp of 00_scope, the whole
part of a square root (R143), and the layout of integers in bytes (R3, R198). -/

namespace Sys2Proof.Machine

/-- R1: the quotient `a / b` of a non-negative `a` and a positive `b`, rounded half up. -/
def roundDiv (a b : Nat) : Nat := (2 * a + b) / (2 * b)

/-- R1, symmetric rounding: the magnitude is rounded half up and the sign restored. -/
def symRound (a : Int) (b : Nat) : Int :=
  if a < 0 then -(roundDiv a.natAbs b : Int) else (roundDiv a.natAbs b : Int)

/-- 00_scope: "a value below lo is replaced by lo and a value above hi by hi". -/
def clampInt (lo hi x : Int) : Int := if x < lo then lo else if hi < x then hi else x

/-- The clamp of 00_scope on non-negative quantities. -/
def clampNat (lo hi x : Nat) : Nat := if x < lo then lo else if hi < x then hi else x

/-- The bits of `floor (√n)` from bit `k - 1` down, on top of the bits `r` already found. -/
def isqrtFrom : Nat → Nat → Nat → Nat
  | 0, _, r => r
  | k + 1, n, r =>
    if (r + 2 ^ k) * (r + 2 ^ k) ≤ n then isqrtFrom k n (r + 2 ^ k) else isqrtFrom k n r

/-- R143: `floor (√n)`, for an `n` of at most 32 bits. -/
def isqrt (n : Nat) : Nat := isqrtFrom 16 n 0

/-- The largest value of the 32-bit counters (R2, R192, R29, R170). -/
def maxCounter : Nat := 4294967295

/-- R192: one step of a counter that stops at its largest value. -/
def countUp (n : Nat) : Nat := if n < maxCounter then n + 1 else n

/-- R198: the least significant `k` bytes of `n`, least significant byte first. -/
def bytesOf : Nat → Nat → List Byte
  | 0, _ => []
  | k + 1, n => BitVec.ofNat 8 n :: bytesOf k (n / 256)

/-- R198: an integer in two's complement in `k` bytes, least significant byte first. -/
def bytesOfInt (k : Nat) (v : Int) : List Byte := bytesOf k (v % (256 ^ k : Nat)).toNat

/-- R198: the number that bytes spell, least significant byte first. -/
def natOfBytes : List Byte → Nat
  | [] => 0
  | b :: bs => b.toNat + 256 * natOfBytes bs

/-- R198: a two-byte field from its bytes, the low byte first. -/
def halfOf (low high : Byte) : Half := high ++ low

/-- R198: a four-byte field from its bytes, the lowest byte first. -/
def wordOf (b0 b1 b2 b3 : Byte) : Word := b3 ++ b2 ++ b1 ++ b0

/-- A two-byte field as its bytes, the low byte first. -/
def bytesOfHalf (h : Half) : List Byte := [h.extractLsb' 0 8, h.extractLsb' 8 8]

/-- A four-byte field as its bytes, the lowest byte first. -/
def bytesOfWord (w : Word) : List Byte :=
  [w.extractLsb' 0 8, w.extractLsb' 8 8, w.extractLsb' 16 8, w.extractLsb' 24 8]

/-- One bit of a packed byte, as its weight at position `i`. -/
def bitAt (i : Nat) (b : Bool) : Nat := if b then 2 ^ i else 0

/-- R198: a set as one number, one bit per member, bit 0 first. -/
def setOf : List Bool → Nat
  | [] => 0
  | b :: bs => bitAt 0 b + 2 * setOf bs

end Sys2Proof.Machine
end

