-- ==== Sys2Proof/Machine/Params.lean ====
section
/-! DEFINITION. The parameters: their identifiers (R201), ranges, defaults and pairing bounds (R186, R187). -/

namespace Sys2Proof.Machine

/-- The parameters, in the order of their identifiers 1 to 49 (R201). -/
inductive Param where
  | nominalFlow | baseLevel | minLevel | maxLevel | extractRatio | imbalanceLimit | defrostAllowance
  | slewRate | steadyTime | boostLevel | boostTime | cookerLevel | cookerRunon | humRise | humRelease
  | humLevelMax | humMaxRun | humInhibit | humArmSamples | dryingMargin | quietNights | frostWatch
  | frostLimit | frostReduceGain | frostReduceMax | preheatFitted | preheatGain | iceRatio | clearRatio
  | stopOa | cycleLimit | preheatStart | preheatEnd | reduceStart | reduceEnd | gateStart | gateEnd
  | defrostSupply | flowK | flowPeriod | filterPeriod | filterDueRatio | filterOverdueRatio
  | filterInterval | overdueGrace | overdueCap | volumeLimit | stationsEnabled | noticeMask
  deriving DecidableEq, Repr

/-- Range and default of a parameter (R186). For a set, `hi` is the number with every member's bit set. -/
structure ParamRow where
  param : Param
  lo : Int
  hi : Int
  default : Int
  deriving DecidableEq, Repr

/-- R186 and R201: the parameters in the order of their identifiers, with their ranges and defaults. -/
def paramTable : List ParamRow :=
  [⟨.nominalFlow, 200, 2000, 400⟩, ⟨.baseLevel, 20, 100, 50⟩, ⟨.minLevel, 10, 60, 20⟩,
   ⟨.maxLevel, 50, 100, 100⟩, ⟨.extractRatio, 90, 120, 105⟩, ⟨.imbalanceLimit, 20, 200, 60⟩,
   ⟨.defrostAllowance, 20, 300, 120⟩, ⟨.slewRate, 1, 100, 10⟩, ⟨.steadyTime, 10, 120, 30⟩,
   ⟨.boostLevel, 50, 100, 90⟩, ⟨.boostTime, 5, 240, 30⟩, ⟨.cookerLevel, 50, 100, 100⟩,
   ⟨.cookerRunon, 0, 60, 10⟩, ⟨.humRise, 30, 200, 80⟩, ⟨.humRelease, 10, 100, 30⟩,
   ⟨.humLevelMax, 50, 100, 85⟩, ⟨.humMaxRun, 20, 240, 120⟩, ⟨.humInhibit, 0, 30, 10⟩,
   ⟨.humArmSamples, 4, 60, 20⟩, ⟨.dryingMargin, 20, 500, 100⟩, ⟨.quietNights, 0, 1, 1⟩,
   ⟨.frostWatch, 10, 80, 30⟩, ⟨.frostLimit, 0, 40, 10⟩, ⟨.frostReduceGain, 5, 50, 20⟩,
   ⟨.frostReduceMax, 20, 80, 50⟩, ⟨.preheatFitted, 0, 1, 0⟩, ⟨.preheatGain, 10, 100, 40⟩,
   ⟨.iceRatio, 110, 250, 140⟩, ⟨.clearRatio, 100, 150, 115⟩, ⟨.stopOa, -350, -100, -250⟩,
   ⟨.cycleLimit, 300, 7200, 1800⟩, ⟨.preheatStart, 1, 7200, 1⟩, ⟨.preheatEnd, 1, 7200, 601⟩,
   ⟨.reduceStart, 1, 7200, 1⟩, ⟨.reduceEnd, 1, 7200, 481⟩, ⟨.gateStart, 1, 7200, 601⟩,
   ⟨.gateEnd, 1, 7200, 721⟩, ⟨.defrostSupply, 0, 50, 30⟩, ⟨.flowK, 50, 2000, 420⟩,
   ⟨.flowPeriod, 30, 600, 60⟩, ⟨.filterPeriod, 5, 120, 15⟩, ⟨.filterDueRatio, 130, 300, 180⟩,
   ⟨.filterOverdueRatio, 150, 400, 250⟩, ⟨.filterInterval, 720, 8760, 4380⟩,
   ⟨.overdueGrace, 0, 2160, 720⟩, ⟨.overdueCap, 40, 100, 80⟩, ⟨.volumeLimit, 0, 2000, 0⟩,
   ⟨.stationsEnabled, 0, 63, 0⟩, ⟨.noticeMask, 0, 511, 0⟩]

/-- The place of a parameter in the table of R201, its identifier less 1. -/
def Param.index (x : Param) : Fin 49 := ⟨x.ctorIdx, by cases x <;> decide⟩

/-- R201: the parameter an identifier names, if it names one. -/
def Param.ofIdent (ident : Byte) : Option Param :=
  if ident.toNat = 0 then none else (paramTable[ident.toNat - 1]?).map ParamRow.param

/-- The row of a parameter in the table of R186. -/
def Param.row (x : Param) : ParamRow := paramTable.getD x.index ⟨x, 0, 0, 0⟩

/-- R187: STATIONS_ENABLED and NOTICE_MASK are sets, one bit per member. -/
def Param.isSet (x : Param) : Bool := x = .stationsEnabled || x = .noticeMask

/-- R186: the values in force of the 49 parameters, by identifier. -/
structure Params where
  values : Vector Int 49
  deriving DecidableEq, Repr

/-- R186: every parameter at its default. -/
def Params.default : Params := ⟨Vector.ofFn fun i => (paramTable.getD i ⟨.nominalFlow, 0, 0, 0⟩).default⟩

/-- The value in force of a parameter. -/
def Params.get (p : Params) (x : Param) : Int := p.values[x.index]

/-- The value in force of a parameter whose range has no negative values. -/
def Params.nat (p : Params) (x : Param) : Nat := (p.get x).toNat

/-- The parameter takes a value. -/
def Params.set (p : Params) (x : Param) (v : Int) : Params := ⟨p.values.set x.index v⟩

/-- The set of stations to be served, bit `n - 1` for station `n`. -/
def Params.stations (p : Params) : BitVec 6 := BitVec.ofInt 6 (p.get .stationsEnabled)

/-- NOTICE_MASK as a set of notice flags. -/
def Params.mask (p : Params) : BitVec 9 := BitVec.ofInt 9 (p.get .noticeMask)

/-- R187 step 2: the value clamped to the parameter's range; a set loses the bits that name no member. -/
def Param.inRange (x : Param) (value : Word) : Int :=
  match x with
  | .stationsEnabled => ((value.extractLsb' 0 6).toNat : Int)
  | .noticeMask => ((value.extractLsb' 0 9).toNat : Int)
  | _ => clampInt x.row.lo x.row.hi value.toInt

/-- R186 and R187 step 3: the value clamped to the parameter's pairing bound, read from its partner. -/
def Params.paired (p : Params) (x : Param) (v : Int) : Int :=
  match x with
  | .imbalanceLimit => min v (p.get .defrostAllowance)
  | .defrostAllowance => max v (p.get .imbalanceLimit)
  | .humRise => max v (p.get .humRelease + 10)
  | .humRelease => min v (p.get .humRise - 10)
  | .frostWatch => max v (p.get .frostLimit + 5)
  | .frostLimit => min v (p.get .frostWatch - 5)
  | .iceRatio => max v (p.get .clearRatio + 5)
  | .clearRatio => min v (p.get .iceRatio - 5)
  | .filterDueRatio => min v (p.get .filterOverdueRatio - 20)
  | .filterOverdueRatio => max v (p.get .filterDueRatio + 20)
  | _ => v

/-- R187: the value a parameter takes when SET_PARAM carries `value` for it. -/
def Params.accepted (p : Params) (x : Param) (value : Word) : Int := p.paired x (x.inRange value)

/-- The value SET_PARAM carries, as it is compared with the accepted one: a set as its 32 bits, any other
parameter as a signed number (R187). -/
def Param.carried (x : Param) (value : Word) : Int :=
  if x.isSet then (value.toNat : Int) else value.toInt

/-- R87: the parameters that the resolver reads. -/
def Param.resolverReads : Param → Bool
  | .nominalFlow | .baseLevel | .minLevel | .maxLevel | .extractRatio | .imbalanceLimit
  | .defrostAllowance | .defrostSupply | .overdueCap => true
  | _ => false

end Sys2Proof.Machine
end

