-- ==== Sys2Proof/Syntax.lean ====
section
/-! DEFINITION. The commands of the part, one constructor for each row of spec/opcode_table.json: the thirty
commands of the host link with the request fields R200 gives them, the malformed host write, and the events of
the part's pins, sensors, buses, store and timers with what each of them brings in from outside. -/

namespace Sys2Proof

/-- The six analog channels (section 1.1). -/
inductive AnalogChannel where
  | oa | sa | ea | eha | outdoorRh | extractRh
  deriving DecidableEq, Repr

/-- The two contact inputs (section 1.3). -/
inductive Contact where
  | cooker | night
  deriving DecidableEq, Repr

/-- The two fan channels (section 6.1). -/
inductive FanId where
  | sup | ext
  deriving DecidableEq, Repr

/-- A room station. Station `n` of the manual, address `n` in 1 to 6, is index `n - 1`. -/
abbrev StationId := Fin 6

/-- The seven humidity sources (R67). -/
inductive SourceId where
  | extract
  | station (n : StationId)
  deriving DecidableEq, Repr

/-- The commands and events of the part, in the order of spec/opcode_table.json. -/
inductive Instr where
  | fileDemand (kind level : Byte) (duration : Half) (tag : Byte)
  | amendDemand (handle : Half) (fields level : Byte) (duration : Half)
  | retireDemand (handle : Half)
  | readDemand (handle : Half)
  | listDemands (position : Byte)
  | readResolution
  | readSensors
  | readStation (address : Byte)
  | readHumidity
  | measure (tap : Byte)
  | readMeasure
  | cancelMeasure
  | readTap (tap : Byte)
  | fitFilter (slot grade : Byte) (interval baseline : Half)
  | retireFilter (slot : Byte)
  | readFilter (slot : Byte)
  | readFrost
  | relearnExchanger
  | setParam (ident : Byte) (value : Word)
  | getParam (ident : Byte)
  | setMode (mode : Byte)
  | setSource (output source : Byte) (value : Half)
  | writeCal (fan point : Byte) (duty flow : Half)
  | readCal (fan : Byte)
  | readFans
  | readNotices
  | clearNotices (flags : Half)
  | clearFanFault (fan : Byte)
  | reset
  | factoryClear
  /-- A write transaction as its bytes after the address byte; the row is the writes R184 refuses. -/
  | badCommand (bytes : List Byte)
  | factoryClearDone
  /-- The levels at ADR1 and ADR0 when the reset ends. -/
  | powerReset (straps : BitVec 2)
  /-- An edge of RST_N: it falls (`none`), or rises with the given levels at ADR1 and ADR0. -/
  | pinReset (released : Option (BitVec 2))
  | storeWriteStart
  | storeWriteComplete
  /-- The eight conversion results of the second that ends in this sample (R4). -/
  | analogSample (channel : AnalogChannel) (conversions : Vector Int 8)
  | holdTimerExpiry (channel : AnalogChannel)
  | startupEnd
  /-- The levels of the contact's pin at its 50 ms samples since the last such event, oldest first; `true` is
  high, an open contact (R13). -/
  | contactLevelChange (contact : Contact) (samples : List Bool)
  /-- The levels of the tachometer's pin at the 20 kHz samples of the window that closes, oldest first (R15). -/
  | tachWindowClose (fan : FanId) (samples : List Bool)
  | restEnd (fan : FanId)
  | cleanRunEnd (fan : FanId)
  | slewStep (fan : FanId)
  | steadinessReached
  | preheatPeriodStart
  | preheatOnTimeEnd
  | demandExpiry (handle : Half)
  | pollRoundStart
  | pollSlot
  /-- The start bit of a reply's first character (`none`), or the reply complete, as its characters from the first to the CRC
  (R51, R203). -/
  | reportReceived (chars : Option (List Byte))
  | replyBadCharacter
  | replyTimeout
  | stationHoldExpiry (station : StationId)
  | humiditySample (source : SourceId)
  | inhibitTimerExpiry (source : SourceId)
  | settleEnd
  /-- One conversion of the PDT input, in 0.1 Pa, before R127's limits. -/
  | reading (conversion : Int)
  | trimTimerExpiry
  | filterTimerExpiry
  | frostTimerExpiry
  | frostEvaluation
  | windowEdge
  | cycleWrap
  | volumeAddition
  | operatingHoursAdvance
  | pollEnd
  | loadingEnd
  | powerLoss
  deriving DecidableEq, Repr

end Sys2Proof
end

