-- ==== Sys2Proof/Machine/Records.lean ====
section
/-! DEFINITION. The records of the part's blocks, each with the values it takes after a reset (the reset column
of the chapter that owns it). Timers hold what is left of them, and 0 or `none` while they are stopped, as
their docstrings say. -/

namespace Sys2Proof.Machine

/-! ### Host link, notices and clock (chapter 10) -/

/-- The statuses of R199. -/
inductive Status where
  | ok | clamped | none | badCommand | badLength | badValue | noSuch | tableFull | notAllowed | wrongMode
  | slotOccupied | slotEmpty | busy
  deriving DecidableEq, Repr

/-- R185: the response buffer; its length field is the length of `data`. -/
structure Response where
  status : Status
  data : List Byte
  deriving DecidableEq, Repr

/-- The host link's own state (R183, R185). -/
structure Link where
  /-- The response buffer. -/
  response : Response
  /-- The levels of ADR1 and ADR0 sampled at the end of the last reset. -/
  straps : BitVec 2
  /-- The settings store has not yet finished loading after the reset. -/
  loading : Bool
  deriving DecidableEq, Repr

/-- The notice flags, in the order of their bits (R189, R198). -/
inductive Notice where
  | reset | demand | filter | fan | frost | station | sensor | measure | store
  deriving DecidableEq, Repr

/-- R195: the causes of a reset. -/
inductive ResetCause where
  | power | pin | command
  deriving DecidableEq, Repr

/-- R195 and R197: how the part stands. -/
inductive Life where
  /-- It runs, from the end of a reset on. -/
  | running
  /-- RST_N is low, which holds the part in reset until it rises. `cause` is the cause of the reset that then ends. -/
  | held (cause : ResetCause)
  /-- The supply is absent. `low` says that RST_N is low as well. -/
  | off (low : Bool)
  deriving DecidableEq, Repr

/-- R189: the notice flags, the cause of the last reset and the store blocks it loaded with defaults. -/
structure Notices where
  flags : BitVec 9
  cause : ResetCause
  defaulted : BitVec 6
  deriving DecidableEq, Repr

/-- R126 and R192: milliseconds and whole seconds since the end of the last reset. -/
structure Clock where
  ms : Nat
  seconds : Nat
  deriving DecidableEq, Repr

/-! ### Sensing front end (chapter 1) -/

/-- Section 1.2. -/
inductive ChannelStatus where
  | pending | valid | held | invalid
  deriving DecidableEq, Repr

/-- Section 1.2: an analog channel. `hold` is what is left of the 60 s hold timer, 0 while it is stopped. -/
structure Channel where
  status : ChannelStatus
  value : Option Int
  hold : Nat
  lastValid : Option Int
  deriving DecidableEq, Repr

/-- R7. -/
def Channel.afterReset : Channel := ⟨.pending, none, 0, none⟩

/-- R13: a contact input's debounced level and its count of differing samples. -/
structure ContactInput where
  closed : Bool
  count : Nat
  deriving DecidableEq, Repr

/-- R15 and R16: a tachometer input. `accepted` is absent before the first sample; `differs` says that the last
sample showed the level opposite to the accepted one. -/
structure TachInput where
  accepted : Option Bool
  differs : Bool
  pulses : Nat
  speed : Nat
  deriving DecidableEq, Repr

/-- The state of the front end. -/
structure Sensing where
  oa : Channel
  sa : Channel
  ea : Channel
  eha : Channel
  outdoorRh : Channel
  extractRh : Channel
  cooker : ContactInput
  night : ContactInput
  tks : TachInput
  tke : TachInput
  deriving DecidableEq, Repr

/-- R7, R13, R15, R16. -/
def Sensing.afterReset : Sensing :=
  { oa := .afterReset, sa := .afterReset, ea := .afterReset, eha := .afterReset
    outdoorRh := .afterReset, extractRh := .afterReset
    cooker := ⟨false, 0⟩, night := ⟨false, 0⟩
    tks := ⟨none, false, 0, 0⟩, tke := ⟨none, false, 0, 0⟩ }

/-! ### Demand table (chapter 2) -/

/-- R27. -/
inductive Kind where
  | hold | boost | setback
  deriving DecidableEq, Repr

/-- R27. -/
inductive Origin where
  | link
  | station (n : StationId)
  | cooker
  | humidity
  deriving DecidableEq, Repr

/-- R27: minutes, INDEFINITE or absent. -/
inductive Duration where
  | absent
  | indefinite
  | minutes (n : Nat)
  deriving DecidableEq, Repr

/-- R27: a live demand record. `held` is the state HELD with the reason NO_DRYING. -/
structure DemandRecord where
  entry : Fin 24
  gen : Nat
  origin : Origin
  kind : Kind
  level : Nat
  tag : Option Byte
  duration : Duration
  remaining : Option Nat
  seq : Nat
  filedAt : Nat
  held : Bool
  deriving DecidableEq, Repr

/-- R23: the demand table. `live` is the live records in the table's order, oldest first (R29); an entry is live
when a record of `live` stands in it; the live count and the LINK count are read from `live`. -/
structure DemandTable where
  live : List DemandRecord
  gens : Vector Nat 24
  freeList : List (Fin 24)
  counter : Nat
  deriving DecidableEq, Repr

/-- R23. -/
def DemandTable.afterReset : DemandTable :=
  { live := [], gens := Vector.replicate 24 0, freeList := List.finRange 24, counter := 0 }

/-! ### Room stations and the station bus (chapter 3) -/

/-- Section 3.3. -/
inductive StationState where
  | unconfigured | seeking | online | lost
  deriving DecidableEq, Repr

/-- R52. -/
inductive StationKind where
  | room | wet
  deriving DecidableEq, Repr

/-- R64. -/
inductive Indicator where
  | off | steady | slowBlink | fastBlink
  deriving DecidableEq, Repr

/-- Section 3.4: a room reading; its status is never PENDING. -/
structure Reading where
  status : ChannelStatus
  value : Option Int
  deriving DecidableEq, Repr

/-- R54: a reading with no value. -/
def Reading.invalid : Reading := ⟨.invalid, none⟩

/-- Section 3.3: a station record. `presses` is the last short count and the last long count; `hold` is what is
left of the 600 s hold timer, 0 while it is stopped; `marked` is the mark of R53. -/
structure Station where
  state : StationState
  kind : Option StationKind
  misses : Nat
  presses : Option (Byte × Byte)
  lastGood : Option Nat
  lastRound : Option Nat
  temperature : Reading
  humidity : Reading
  hold : Nat
  indicator : Indicator
  marked : Bool
  deriving DecidableEq, Repr

/-- R54: the values of a record in `state` that has not been polled. -/
def Station.fresh (state : StationState) : Station :=
  { state, kind := none, misses := 0, presses := none, lastGood := none, lastRound := none
    temperature := .invalid, humidity := .invalid, hold := 0, indicator := .off, marked := false }

/-- R51: the exchange in flight: none, a POLL on the line (SBDE active), or the reply window. `elapsed` counts
milliseconds from the start of the POLL, and from its end in the window. `begun` says that the start bit of a reply's
first character has come. In `void` a POLL is still on the line whose exchange R58 has made void. -/
inductive Exchange where
  | idle
  | sending (station : StationId) (frame : List Byte) (elapsed : Nat)
  | void (frame : List Byte) (elapsed : Nat)
  | window (station : StationId) (elapsed : Nat) (begun : Bool)
  deriving DecidableEq, Repr

/-- The station bus controller's state. -/
structure Bus where
  stations : Vector Station 6
  exchange : Exchange
  deriving DecidableEq, Repr

/-- R54, with the set of enabled stations as loaded. -/
def Bus.afterReset (enabled : BitVec 6) : Bus :=
  { stations := Vector.ofFn fun n => .fresh (if enabled.getLsbD n.val then .seeking else .unconfigured)
    exchange := .idle }

/-! ### Humidity rule (chapter 4) -/

/-- R68. -/
inductive SourceState where
  | disarmed | quiet | rising | deferred | exhausted
  deriving DecidableEq, Repr

/-- R68: a humidity source. `last` is the sample s and the temperature of its reading. -/
structure Source where
  state : SourceState
  baseline : Option Int
  arm : Nat
  last : Option (Int × Int)
  deviation : Option Int
  inhibit : Nat
  run : Nat
  settle : Nat
  level : Option Nat
  noDrying : Bool
  deriving DecidableEq, Repr

/-- R68, last column. -/
def Source.afterReset : Source :=
  { state := .disarmed, baseline := none, arm := 0, last := none, deviation := none, inhibit := 0, run := 0
    settle := 0, level := none, noDrying := false }

/-- The seven humidity sources (R67). -/
structure Humidity where
  extract : Source
  stations : Vector Source 6
  deriving DecidableEq, Repr

/-- R68. -/
def Humidity.afterReset : Humidity := ⟨.afterReset, Vector.replicate 6 .afterReset⟩

/-! ### Resolver (chapter 5) -/

/-- Section 5.5. -/
inductive Mode where
  | startup | run | standby | commission
  deriving DecidableEq, Repr

/-- R86. -/
inductive DSource where
  | zero | hold | base | setback | boost
  deriving DecidableEq, Repr

/-- R86: the resolution view. -/
structure View where
  d : Nat
  source : DSource
  handle : Half
  s0 : Nat
  e0 : Nat
  a : Nat
  s1 : Nat
  e1 : Nat
  preheat : Nat
  reasons : BitVec 9
  deriving DecidableEq, Repr

/-- R86 and R89: the view with everything zero but the allowance. -/
def View.zero (a : Nat) : View := ⟨0, .zero, 0, 0, 0, a, 0, 0, 0, 0⟩

/-- The resolver's state: the view and the three modes of section 5.5. -/
structure Resolver where
  view : View
  mode : Mode
  pending : Mode
  stored : Mode
  deriving DecidableEq, Repr

/-- R86 and R100. -/
def Resolver.afterReset (p : Params) (stored : Mode) : Resolver :=
  ⟨.zero (p.nat .imbalanceLimit), .startup, stored, stored⟩

/-! ### Fan drive (chapter 6) -/

/-- Section 6.8. -/
inductive FanState where
  | idle | running | faultRest | locked
  deriving DecidableEq, Repr

/-- R122: AUTO, or DIRECT with its value. -/
inductive DriveSource where
  | auto
  | direct (value : Nat)
  deriving DecidableEq, Repr

/-- R106: a calibration point. -/
structure CalPoint where
  duty : Nat
  flow : Nat
  deriving DecidableEq, Repr

/-- R106: a calibration table. -/
abbrev CalTable := Vector CalPoint 6

/-- R106: the default table. -/
def CalTable.default : CalTable :=
  #v[⟨200, 80⟩, ⟨360, 160⟩, ⟨520, 240⟩, ⟨680, 320⟩, ⟨840, 400⟩, ⟨1000, 480⟩]

/-- The calibrations block: both fans' tables. -/
structure Calibrations where
  sup : CalTable
  ext : CalTable
  deriving DecidableEq, Repr

/-- R193. -/
def Calibrations.default : Calibrations := ⟨.default, .default⟩

/-- R105: a fan channel, but for its calibration table. `step` is what is left of the step timer in
milliseconds, absent while it is stopped; `rest` and `cleanRun` are in seconds. -/
structure Fan where
  state : FanState
  source : DriveSource
  requested : Nat
  commanded : Nat
  step : Option Nat
  stall : Nat
  rest : Nat
  attempts : Nat
  cleanRun : Nat
  deriving DecidableEq, Repr

/-- R105, last column. -/
def Fan.afterReset : Fan :=
  { state := .idle, source := .auto, requested := 0, commanded := 0, step := none, stall := 0, rest := 0
    attempts := 0, cleanRun := 0 }

/-- R123: the preheater. `pin` is the level of PRE; `periodStart` is when the present period began. -/
structure Preheater where
  source : DriveSource
  effective : Nat
  periodStart : Nat
  pin : Bool
  deriving DecidableEq, Repr

/-- R105, R116, R123: the fan drive. `elapsed` is the steadiness timer in milliseconds. -/
structure Drive where
  sup : Fan
  ext : Fan
  cals : Calibrations
  trim : Nat
  elapsed : Nat
  steady : Bool
  preheater : Preheater
  deriving DecidableEq, Repr

/-- R105 and R123, with the calibration tables as loaded. -/
def Drive.afterReset (cals : Calibrations) : Drive :=
  { sup := .afterReset, ext := .afterReset, cals, trim := 1000, elapsed := 0, steady := false
    preheater := ⟨.auto, 0, 0, false⟩ }

/-! ### Pressure channel (chapter 7) -/

/-- Section 7.1. -/
inductive Tap where
  | flow | supFilter | extFilter | exch
  deriving DecidableEq, Repr

/-- R132. -/
inductive Requester where
  | frost | trim | filter | link
  deriving DecidableEq, Repr

/-- R170. -/
inductive FilterSlot where
  | supply | extract
  deriving DecidableEq, Repr

/-- R133: a request in a requester's slot, WAITING or GRANTED. -/
structure Request where
  tap : Tap
  slot : Option FilterSlot
  granted : Bool
  deriving DecidableEq, Repr

/-- R128: the measurement in flight. -/
structure Flight where
  requester : Requester
  tap : Tap
  slot : Option FilterSlot
  count : Nat
  sum : Nat
  overRange : Bool
  deriving DecidableEq, Repr

/-- R128: the channel's phase, with the measurement in flight in SELECT and SAMPLE. -/
inductive Phase where
  | free
  | select (flight : Flight)
  | sample (flight : Flight)
  deriving DecidableEq, Repr

/-- R145. -/
inductive MeasureOutcome where
  | valid | overRange | lowFlow
  deriving DecidableEq, Repr

/-- R142: what a result holds beside P and OVER: the orifice flow Q for FLOW; for the other taps the outcome,
the flow used, whether its origin is ESTIMATE, and Pn. -/
inductive ResultBody where
  | orifice (q : Nat)
  | element (outcome : MeasureOutcome) (flow : Nat) (estimate : Bool) (pn : Option Nat)
  deriving DecidableEq, Repr

/-- R130 and R131: the result of a measurement. -/
structure Result where
  p : Nat
  overRange : Bool
  body : ResultBody
  deriving DecidableEq, Repr

/-- R142: an entry of the last-result table. -/
structure TapEntry where
  result : Result
  requester : Requester
  second : Nat
  deriving DecidableEq, Repr

/-- R139. -/
inductive LinkState where
  | none | waiting | inProgress | done | aborted
  deriving DecidableEq, Repr

/-- R139. -/
inductive AbortCause where
  | cancelled | standby
  deriving DecidableEq, Repr

/-- R139: the LINK record. -/
structure LinkRecord where
  state : LinkState
  tap : Option Tap
  cause : Option AbortCause
  result : Option Result
  deriving DecidableEq, Repr

/-- The pressure channel. `arrival` is the selector's arrival time in milliseconds since the reset (R126);
`history` is the grant history, oldest first (R133); `fresh` is the flag of R144; the three timers are in
milliseconds, absent while they are stopped (R136 to R138). -/
structure Pressure where
  position : Tap
  arrival : Nat
  phase : Phase
  frost : Option Request
  trim : Option Request
  filter : Option Request
  link : Option Request
  history : List Requester
  record : LinkRecord
  flowEntry : Option TapEntry
  supEntry : Option TapEntry
  extEntry : Option TapEntry
  exchEntry : Option TapEntry
  fresh : Bool
  trimTimer : Option Nat
  filterTimer : Option Nat
  frostTimer : Option Nat
  lastSlot : Option FilterSlot
  deriving DecidableEq, Repr

/-! ### Frost guard (chapter 8) -/

/-- Chapter 8. -/
inductive Stage where
  | clear | watch | limit | cycle | stop
  deriving DecidableEq, Repr

/-- R155. -/
inductive Reason where
  | none | mode | margin | ice | saturated | thawed | cold | iced | warmed | retry | outdoor
  deriving DecidableEq, Repr

/-- R157: the latched cycle limit and window compares. -/
structure CycleTimes where
  limit : Nat
  preheatStart : Nat
  preheatEnd : Nat
  reduceStart : Nat
  reduceEnd : Nat
  gateStart : Nat
  gateEnd : Nat
  deriving DecidableEq, Repr

/-- R157: CYCLE_LIMIT and the six window compares as they now stand. -/
def Params.cycleTimes (p : Params) : CycleTimes :=
  { limit := p.nat .cycleLimit
    preheatStart := p.nat .preheatStart, preheatEnd := p.nat .preheatEnd
    reduceStart := p.nat .reduceStart, reduceEnd := p.nat .reduceEnd
    gateStart := p.nat .gateStart, gateEnd := p.nat .gateEnd }

/-- R158: which windows are active. -/
structure Windows where
  preheat : Bool
  reduce : Bool
  gate : Bool
  deriving DecidableEq, Repr

/-- No window active. -/
def Windows.closed : Windows := ⟨false, false, false⟩

/-- R159 and R165: a ratio or OVER. -/
inductive RatioResult where
  | ratio (n : Nat)
  | overRange
  deriving DecidableEq, Repr

/-- R166: the exchanger baseline record; its state is LEARNT when `pn0` is present and LEARNING when it is
absent. -/
structure Baseline where
  count : Nat
  sum : Nat
  pn0 : Option Nat
  deriving DecidableEq, Repr

/-- R166 and R193: LEARNING, count and sum 0, Pn0 absent. -/
def Baseline.default : Baseline := ⟨0, 0, none⟩

/-- R148: the frost guard. `stopTimer` is in seconds. `priorReduction` and `priorPreheat` are the orders as they stood after
the previous evaluation, which R150 reads. -/
structure Frost where
  stage : Stage
  reason : Reason
  fallback : Bool
  tf : Option Int
  margin : Option Int
  hold : Nat
  saturation : Nat
  ice : Nat
  stopTimer : Nat
  reduction : Nat
  preheat : Nat
  priorReduction : Nat
  priorPreheat : Nat
  counter : Nat
  latched : CycleTimes
  windows : Windows
  gateResult : Option RatioResult
  failed : Nat
  unjudged : Bool
  lastRatio : Option RatioResult
  baseline : Baseline
  deriving DecidableEq, Repr

/-- R148, last column, with the parameters and the baseline as loaded. -/
def Frost.afterReset (p : Params) (baseline : Baseline) : Frost :=
  { stage := .clear, reason := .none, fallback := false, tf := none, margin := none, hold := 0
    saturation := 0, ice := 0, stopTimer := 0, reduction := 0, preheat := 0, priorReduction := 0, priorPreheat := 0
    counter := 0, latched := p.cycleTimes, windows := .closed, gateResult := none, failed := 0, unjudged := false
    lastRatio := none, baseline }

/-- R126, R128, R133, R136 to R139, R142, R144: the pressure channel after a reset, in stage CLEAR. -/
def Pressure.afterReset (p : Params) (baseline : Baseline) : Pressure :=
  { position := .flow, arrival := 0, phase := .free, frost := none, trim := none, filter := none, link := none
    history := [], record := ⟨.none, none, none, none⟩
    flowEntry := none, supEntry := none, extEntry := none, exchEntry := none, fresh := false
    trimTimer := some (p.nat .flowPeriod * 1000)
    filterTimer := some (p.nat .filterPeriod * 60000)
    frostTimer := if baseline.pn0.isSome then none else some (p.nat .filterPeriod * 60000)
    lastSlot := none }

/-! ### Filter table (chapter 9) -/

/-- R170. -/
inductive Grade where
  | coarse | medium | fine
  deriving DecidableEq, Repr

/-- R170. -/
inductive BaselineOrigin where
  | given | learnt
  deriving DecidableEq, Repr

/-- Section 9.4. -/
inductive FilterState where
  | learning | service | due | overdue
  deriving DecidableEq, Repr

/-- R170: a filter record. `causes` is the set RATIO, OVER, AGE, VOLUME, bit 0 first. -/
structure FilterRecord where
  grade : Grade
  fittedAt : Nat
  interval : Nat
  pn0 : Option Nat
  origin : Option BaselineOrigin
  learnCount : Nat
  learnSum : Nat
  latestPn : Option Nat
  latestRatio : Option Nat
  volume : Nat
  litres : Nat
  state : FilterState
  causes : BitVec 4
  lastValid : Option Nat
  deriving DecidableEq, Repr

/-- R170: the two slots, each empty or holding a record. -/
structure Filters where
  supply : Option FilterRecord
  extract : Option FilterRecord
  deriving DecidableEq, Repr

/-- R193: both slots empty. -/
def Filters.default : Filters := ⟨none, none⟩

/-! ### Settings store (section 10.5) -/

/-- R193: the six blocks, in the order of the set of defaulted blocks (R198). -/
inductive Block where
  | parameters | calibrations | filterRecords | exchangerBaseline | hours | storedMode
  deriving DecidableEq, Repr

/-- R194: what a write puts into a block, as it stood when the write started. -/
inductive Image where
  | parameters (p : Params)
  | calibrations (c : Calibrations)
  | filterRecords (f : Filters)
  | exchangerBaseline (b : Baseline)
  | hours (n : Nat)
  | storedMode (m : Mode)
  deriving DecidableEq, Repr

/-- R193 and R194: the settings store. The first six fields are the non-volatile memory, `none` for a block that
is blank or whose check fails. `queue` is the pending queue; `writing` is the write in progress, and
`writeElapsed` its time so far in milliseconds; `clearing` is, from an accepted FACTORY_CLEAR on, the default
blocks not yet started (R197). -/
structure Store where
  params : Option Params
  cals : Option Calibrations
  filters : Option Filters
  baseline : Option Baseline
  hours : Option Nat
  mode : Option Mode
  queue : List Block
  writing : Option Image
  writeElapsed : Nat
  clearing : Option (List Block)
  deriving DecidableEq, Repr

/-- A store in which every block is blank and nothing is written. -/
def Store.blank : Store :=
  { params := none, cals := none, filters := none, baseline := none, hours := none, mode := none, queue := []
    writing := none, writeElapsed := 0, clearing := none }

end Sys2Proof.Machine
end

