-- ==== Sys2Proof/Machine/State.lean ====
section
/-! DEFINITION. The state of the part, its faults and refusals, and the state after reset. -/

namespace Sys2Proof.Machine

/-- The whole state of the part. -/
structure State where
  /-- The commands and events that are waiting, first in, first out. -/
  pending : List Instr
  /-- The model's own: events that have come due at the present moment and have not yet been taken. -/
  agenda : List Instr
  /-- The model's own: how many free values have been read (assumptions 3, 4 and 15). -/
  freeCount : Nat
  /-- The part runs, is held in reset, or is without the supply (R195, R197). -/
  life : Life
  /-- R2 and R192: the time since the last reset. -/
  clock : Clock
  /-- R192: the operating-hours counter. -/
  hours : Nat
  link : Link
  notices : Notices
  params : Params
  sensing : Sensing
  demand : DemandTable
  bus : Bus
  humidity : Humidity
  resolver : Resolver
  drive : Drive
  pressure : Pressure
  frost : Frost
  filters : Filters
  store : Store
  deriving DecidableEq, Repr

/-- R195 and R197: the part has its supply and is not held in reset. -/
def State.running (s : State) : Bool := s.life = .running

/-- What can stop the part. The manual gives it no machine fault: every command is answered by a status and
every event has its effect, so there is no constructor and no step faults. -/
inductive Fault where
  deriving DecidableEq, Repr

/-- Why the model has no meaning for a command. -/
inductive Refusal where
  /-- Raised by `exec` for a row without a meaning; safe, because nothing can be proved of what follows it. No
  arm of `exec` raises it now. -/
  | notModelled (mnemonic : String)
  deriving DecidableEq, Repr

/-- The machine right after a reset with the cause POWER of a new part, whose store is blank (assumption 1):
every block at the reset values of its chapter, the parameters and the stored records at their defaults, all six
blocks named as defaulted, and the flags RESET and STORE set (R193, R195). The store is still loading, so the
part does not yet acknowledge its address (R183). -/
def State.reset : State :=
  { pending := [], agenda := [], freeCount := 0, life := .running
    clock := ⟨0, 0⟩
    hours := 0
    link := ⟨⟨.none, []⟩, 0, true⟩
    notices := ⟨0b100000001, .power, 0b111111⟩
    params := .default
    sensing := .afterReset
    demand := .afterReset
    bus := .afterReset 0
    humidity := .afterReset
    resolver := .afterReset .default .standby
    drive := .afterReset .default
    pressure := .afterReset .default .default
    frost := .afterReset .default .default
    filters := .default
    store := .blank }

end Sys2Proof.Machine
end

