-- ==== Sys2Proof/Machine/Operands.lean ====
section
/-! DEFINITION. The forms in which fields travel on the host link (R198, R199): the codes of the enumerations,
in requests and in responses, and the codes of absent values. -/

namespace Sys2Proof.Machine

/-- R198: the member of an enumeration that a request byte names, the members being listed from code 0 up. -/
def memberOf {α : Type} (members : List α) (code : Byte) : Option α := members[code.toNat]?

/-- R198: the code of a member of an enumeration. -/
def codeOf {α : Type} [DecidableEq α] (members : List α) (x : α) : Nat := members.idxOf x

/-- R198. -/
def Kind.members : List Kind := [.hold, .boost, .setback]

/-- R198. -/
def Origin.members : List Origin :=
  .link :: ((List.finRange 6).map Origin.station ++ [.cooker, .humidity])

/-- R198. -/
def DSource.members : List DSource := [.zero, .hold, .base, .setback, .boost]

/-- R198. -/
def Mode.members : List Mode := [.startup, .run, .standby, .commission]

/-- R198. -/
def ChannelStatus.members : List ChannelStatus := [.pending, .valid, .held, .invalid]

/-- R198. -/
def StationState.members : List StationState := [.unconfigured, .seeking, .online, .lost]

/-- R198. -/
def StationKind.members : List StationKind := [.room, .wet]

/-- R198. -/
def Indicator.members : List Indicator := [.off, .steady, .slowBlink, .fastBlink]

/-- R198. -/
def SourceState.members : List SourceState := [.disarmed, .quiet, .rising, .deferred, .exhausted]

/-- R198. -/
def Tap.members : List Tap := [.flow, .supFilter, .extFilter, .exch]

/-- R198. -/
def Requester.members : List Requester := [.frost, .trim, .filter, .link]

/-- R198. -/
def LinkState.members : List LinkState := [.none, .waiting, .inProgress, .done, .aborted]

/-- R198: the abort causes, absent first. -/
def AbortCause.members : List (Option AbortCause) := [none, some .cancelled, some .standby]

/-- R198. -/
def MeasureOutcome.members : List MeasureOutcome := [.valid, .overRange, .lowFlow]

/-- R198. -/
def FilterSlot.members : List FilterSlot := [.supply, .extract]

/-- R198. -/
def Grade.members : List Grade := [.coarse, .medium, .fine]

/-- R198. -/
def FilterState.members : List FilterState := [.learning, .service, .due, .overdue]

/-- R198: the baseline origins, absent first. -/
def BaselineOrigin.members : List (Option BaselineOrigin) := [none, some .given, some .learnt]

/-- R198. -/
def Stage.members : List Stage := [.clear, .watch, .limit, .cycle, .stop]

/-- R198. -/
def Reason.members : List Reason :=
  [.none, .mode, .margin, .ice, .saturated, .thawed, .cold, .iced, .warmed, .retry, .outdoor]

/-- R198: the fans, as CLEAR_FAN_FAULT, READ_CAL and WRITE_CAL take them. -/
def fanMembers : List FanId := [.sup, .ext]

/-- R122 and R198: an output of the source map. -/
inductive Output where
  | fan (f : FanId)
  | pre
  deriving DecidableEq, Repr

/-- R198. -/
def Output.members : List Output := [.fan .sup, .fan .ext, .pre]

/-- R198: the sources of an output as SET_SOURCE takes them, `true` for DIRECT. -/
def sourceMembers : List Bool := [false, true]

/-- R198. -/
def FanState.members : List FanState := [.idle, .running, .faultRest, .locked]

/-- R195 and R198. -/
def ResetCause.members : List ResetCause := [.power, .pin, .command]

/-- R199. -/
def Status.code : Status → Byte
  | .ok => 0x00 | .clamped => 0x01 | .none => 0x02 | .badCommand => 0x10 | .badLength => 0x11
  | .badValue => 0x12 | .noSuch => 0x13 | .tableFull => 0x14 | .notAllowed => 0x15 | .wrongMode => 0x16
  | .slotOccupied => 0x17 | .slotEmpty => 0x18 | .busy => 0x19

/-- A one-byte field holding an enumeration (R198). -/
def enumByte {α : Type} [DecidableEq α] (members : List α) (x : α) : List Byte := bytesOf 1 (codeOf members x)

/-- R198: a signed 16-bit temperature or margin, 0x7FFF absent. -/
def temperatureField : Option Int → List Byte
  | some v => bytesOfInt 2 v
  | none => bytesOf 2 0x7FFF

/-- R198: an unsigned quantity in `k` bytes, all ones when absent. -/
def quantityField (k : Nat) : Option Nat → List Byte
  | some v => bytesOf k v
  | none => bytesOf k (256 ^ k - 1)

/-- R198: a field of `k` bytes whose absence a packed byte reports: 0 when absent. -/
def packedField (k : Nat) (v : Option Nat) : List Byte := bytesOf k (v.getD 0)

/-- R202: a ratio, 0xFFFE for OVER and 0xFFFF when absent. -/
def ratioField : Option RatioResult → List Byte
  | some (.ratio n) => bytesOf 2 n
  | some .overRange => bytesOf 2 0xFFFE
  | none => bytesOf 2 0xFFFF

end Sys2Proof.Machine
end

