-- ==== Sys2Proof/Machine/Flags.lean ====
section
/-! DEFINITION. The sets that travel as flags: the notice flags with the ATTN_N line (R189 to R191), the set of
defaulted store blocks (R193), the limiting reasons (R99) and the filter advance causes (R176). -/

namespace Sys2Proof.Machine

/-- R198: the bit of a notice flag. -/
def Notice.bit : Notice → Nat
  | .reset => 0 | .demand => 1 | .filter => 2 | .fan => 3 | .frost => 4 | .station => 5 | .sensor => 6
  | .measure => 7 | .store => 8

/-- R198: the set holding one notice flag. -/
def Notice.flag (n : Notice) : BitVec 9 := 1#9 <<< n.bit

/-- R189: the flags with one more set. -/
def Notices.set (n : Notices) (x : Notice) : Notices := { n with flags := n.flags ||| x.flag }

/-- R189: a flag stands set. -/
def Notices.has (n : Notices) (x : Notice) : Bool := n.flags.getLsbD x.bit

/-- A notice flag is set at the event its owner gives (R189). -/
def State.notify (s : State) (x : Notice) : State := { s with notices := s.notices.set x }

/-- A notice flag is set where a condition holds. -/
def State.notifyIf (s : State) (c : Bool) (x : Notice) : State := if c then s.notify x else s

/-- R193: the bit of a block in the set of defaulted blocks. -/
def Block.bit : Block → Nat
  | .parameters => 0 | .calibrations => 1 | .filterRecords => 2 | .exchangerBaseline => 3 | .hours => 4
  | .storedMode => 5

/-- R99: the set of limiting reasons, each standing when its condition holds. -/
def reasonSet (minLevel maxLevel filterMissing filterCap frostReduce defrost imbalance supUnavailable
    extUnavailable : Bool) : BitVec 9 :=
  BitVec.ofNat 9 (setOf [minLevel, maxLevel, filterMissing, filterCap, frostReduce, defrost, imbalance,
    supUnavailable, extUnavailable])

/-- R176: a set of advance causes. -/
def causeSet (ratio overRange age volume : Bool) : BitVec 4 :=
  BitVec.ofNat 4 (setOf [ratio, overRange, age, volume])

/-- The part acknowledges its address (R183, R195, R197): it runs, the store has loaded, and no FACTORY_CLEAR is under
way. -/
def State.answering (s : State) : Bool := s.running && !s.link.loading && s.store.clearing.isNone

/-- R183: the part's 7-bit address. -/
def State.address (s : State) : BitVec 7 := 0x4C#7 + s.link.straps.setWidth 7

/-- R183: the part acknowledges an address byte with a 7-bit address, its own alone. -/
def State.acknowledges (s : State) (address : BitVec 7) : Bool := s.answering && address = s.address

/-- R191: ATTN is asserted, ATTN_N driven low, exactly when a notice flag outside NOTICE_MASK is set; in reset and
during loading it is released. -/
def State.attn (s : State) : Bool :=
  s.running && !s.link.loading && (s.notices.flags &&& ~~~s.params.mask != 0)

end Sys2Proof.Machine
end

