-- ==== Sys2Proof/Machine/Ops.lean ====
section
/-! DEFINITION. The operations the families share: answering a command, the two ways in which a row reaches the
part, the records by name, and the marking of changed store blocks. -/

namespace Sys2Proof.Machine

/-- What a command or event answers. No row faults. -/
abbrev Answer := Host.Outcome State Fault Refusal

/-- A command of the host. The part takes it where it acknowledges its address (R183); elsewhere the write is
refused at the address byte and changes nothing. -/
def hostCommand (s : State) (run : State → State) : Answer := .next (if s.answering then run s else s)

/-- An event inside the part. A part held in reset (R195) or without the supply (R197) has stopped, and nothing happens. -/
def partEvent (s : State) (run : State → State) : Answer := .next (if s.running then run s else s)

/-- R185: the response buffer takes a command's response. -/
def State.respond (s : State) (status : Status) (data : List Byte) : State :=
  { s with link := { s.link with response := ⟨status, data⟩ } }

/-- R184: a refused command's response carries its status and a length of 0. -/
def State.refuse (s : State) (status : Status) : State := s.respond status []

/-- R185: the first `n` bytes that the response buffer gives a read. -/
def Response.bytes (r : Response) (n : Nat) : List Byte :=
  let held : List Byte := r.status.code :: BitVec.ofNat 8 r.data.length :: r.data
  (held ++ List.replicate (n - held.length) 0#8).take n

/-- R183 and R185: the bytes a read transaction of `n` bytes to an address returns; `none` where the part does not
acknowledge the address, and the read is refused at the address byte. -/
def State.hostRead (s : State) (address : BitVec 7) (n : Nat) : Option (List Byte) :=
  if s.acknowledges address then some (s.link.response.bytes n) else none

/-! ### Records by name -/

/-- The analog channel with a name. -/
def Sensing.channel (x : Sensing) : AnalogChannel → Channel
  | .oa => x.oa | .sa => x.sa | .ea => x.ea | .eha => x.eha
  | .outdoorRh => x.outdoorRh | .extractRh => x.extractRh

/-- An analog channel takes new items. -/
def Sensing.setChannel (x : Sensing) (c : AnalogChannel) (v : Channel) : Sensing :=
  match c with
  | .oa => { x with oa := v } | .sa => { x with sa := v } | .ea => { x with ea := v }
  | .eha => { x with eha := v } | .outdoorRh => { x with outdoorRh := v }
  | .extractRh => { x with extractRh := v }

/-- The contact input with a name. -/
def Sensing.contact (x : Sensing) : Contact → ContactInput
  | .cooker => x.cooker | .night => x.night

/-- A contact input takes new items. -/
def Sensing.setContact (x : Sensing) (c : Contact) (v : ContactInput) : Sensing :=
  match c with
  | .cooker => { x with cooker := v } | .night => { x with night := v }

/-- The tachometer input of a fan. -/
def Sensing.tach (x : Sensing) : FanId → TachInput
  | .sup => x.tks | .ext => x.tke

/-- A tachometer input takes new items. -/
def Sensing.setTach (x : Sensing) (f : FanId) (v : TachInput) : Sensing :=
  match f with
  | .sup => { x with tks := v } | .ext => { x with tke := v }

/-- The humidity source with a name. -/
def Humidity.source (h : Humidity) : SourceId → Source
  | .extract => h.extract
  | .station n => h.stations[n]

/-- A humidity source takes new items. -/
def Humidity.setSource (h : Humidity) (i : SourceId) (v : Source) : Humidity :=
  match i with
  | .extract => { h with extract := v }
  | .station n => { h with stations := h.stations.set n v }

/-- A change to what each of the six stations has. -/
def eachStation {α : Type} (f : α → α) (v : Vector α 6) : Vector α 6 := Vector.ofFn fun n => f v[n]

/-- The seven sources in the order EXTRACT, STATION_1 to STATION_6 (R85). -/
def SourceId.all : List SourceId := .extract :: (List.finRange 6).map SourceId.station

/-- The fan channel with a name. -/
def Drive.fan (d : Drive) : FanId → Fan
  | .sup => d.sup | .ext => d.ext

/-- A fan channel takes new items. -/
def Drive.setFan (d : Drive) (f : FanId) (v : Fan) : Drive :=
  match f with
  | .sup => { d with sup := v } | .ext => { d with ext := v }

/-- The calibration table of a fan. -/
def Calibrations.table (c : Calibrations) : FanId → CalTable
  | .sup => c.sup | .ext => c.ext

/-- A fan's calibration table is replaced. -/
def Calibrations.setTable (c : Calibrations) (f : FanId) (t : CalTable) : Calibrations :=
  match f with
  | .sup => { c with sup := t } | .ext => { c with ext := t }

/-- The request slot of a requester (R133). -/
def Pressure.request (p : Pressure) : Requester → Option Request
  | .frost => p.frost | .trim => p.trim | .filter => p.filter | .link => p.link

/-- A requester's slot takes a request, or is emptied. -/
def Pressure.setRequest (p : Pressure) (r : Requester) (v : Option Request) : Pressure :=
  match r with
  | .frost => { p with frost := v } | .trim => { p with trim := v }
  | .filter => { p with filter := v } | .link => { p with link := v }

/-- The last-result entry of a tap (R142). -/
def Pressure.entry (p : Pressure) : Tap → Option TapEntry
  | .flow => p.flowEntry | .supFilter => p.supEntry | .extFilter => p.extEntry | .exch => p.exchEntry

/-- A tap's last-result entry is overwritten whole (R142). -/
def Pressure.setEntry (p : Pressure) (t : Tap) (v : TapEntry) : Pressure :=
  match t with
  | .flow => { p with flowEntry := some v } | .supFilter => { p with supEntry := some v }
  | .extFilter => { p with extEntry := some v } | .exch => { p with exchEntry := some v }

/-- The measurement in flight, in SELECT and SAMPLE (R128). -/
def Phase.flight : Phase → Option Flight
  | .free => none
  | .select f => some f
  | .sample f => some f

/-- The filter slot with a name (R170). -/
def Filters.slot (f : Filters) : FilterSlot → Option FilterRecord
  | .supply => f.supply | .extract => f.extract

/-- A filter slot takes a record, or is emptied. -/
def Filters.setSlot (f : Filters) (i : FilterSlot) (v : Option FilterRecord) : Filters :=
  match i with
  | .supply => { f with supply := v } | .extract => { f with extract := v }

/-- The tap of a filter slot (R132). -/
def FilterSlot.tap : FilterSlot → Tap
  | .supply => .supFilter | .extract => .extFilter

/-! ### Changed store blocks -/

/-- R194: a change to a block. A block not already PENDING goes to the tail of the pending queue. From an accepted
FACTORY_CLEAR on, changes are not written (R197). -/
def Store.change (t : Store) (b : Block) : Store :=
  if t.clearing.isSome || t.queue.contains b then t else { t with queue := t.queue ++ [b] }

/-- A block of the settings store has changed (R194). -/
def State.changed (s : State) (b : Block) : State := { s with store := s.store.change b }

/-- A block of the settings store has changed, where a condition holds. -/
def State.changedIf (s : State) (c : Bool) (b : Block) : State := if c then s.changed b else s

end Sys2Proof.Machine
end

