-- ==== Sys2Proof/Machine/Sensing.lean ====
section
/-! DEFINITION. The sensing front end: samples and channel status (R4 to R12), the debouncing of contacts (R13),
the tachometer inputs (R15, R16) and the moisture arithmetic (R17 to R20), with the meanings of ANALOG_SAMPLE
and HOLD_TIMER_EXPIRY. -/

namespace Sys2Proof.Machine

/-! ### Samples -/

/-- R4: the sample, the mean of the eight conversion results with symmetric rounding. -/
def sampleMean (conversions : Vector Int 8) : Int := symRound conversions.toList.sum 8

/-- R5: the value a temperature sample gives, absent where the sample is failed. -/
def temperatureSample (v : Int) : Option Int :=
  if v < -450 ∨ 700 < v then none else some (clampInt (-400) 600 v)

/-- R6: the value a humidity sample gives, absent where the sample is failed. -/
def rhSample (v : Int) : Option Int :=
  if v < -50 ∨ 1050 < v then none else some (clampInt 0 1000 v)

/-- R5 and R6, by the quantity of the channel. -/
def classify (c : AnalogChannel) (v : Int) : Option Int :=
  match c with
  | .oa | .sa | .ea | .eha => temperatureSample v
  | .outdoorRh | .extractRh => rhSample v

/-- R7, R8 and R9: a sample reaches its channel, with its value where it is good. -/
def Channel.take (c : Channel) (good : Option Int) : Channel :=
  match good with
  | some v => ⟨.valid, some v, 0, some v⟩
  | none =>
    match c.status with
    | .valid => { c with status := .held, hold := 60 }
    | .held | .invalid => c
    | .pending => { c with status := .invalid, value := none, hold := 0 }

/-- R10: the hold timer of a HELD channel runs out. -/
def Channel.expire (c : Channel) : Channel :=
  if c.status = .held then { c with status := .invalid, value := none, hold := 0 } else c

/-- R11: a channel's move from `old` to `new` sets the SENSOR notice. -/
def sensorNotice (old new : ChannelStatus) : Bool :=
  (new = .invalid && old != .invalid) || (old = .invalid && new = .valid)

/-- R12: the value a consumer uses, in VALID and HELD. -/
def Channel.usable (c : Channel) : Option Int :=
  match c.status with
  | .valid | .held => c.value
  | .pending | .invalid => none

/-- A channel takes new items, and the SENSOR notice is set where R11 says so. -/
def State.moveChannel (s : State) (c : AnalogChannel) (v : Channel) : State :=
  { s with sensing := s.sensing.setChannel c v }.notifyIf
    (sensorNotice (s.sensing.channel c).status v.status) .sensor

/-- ANALOG_SAMPLE (R4 to R9). -/
def execAnalogSample (c : AnalogChannel) (conversions : Vector Int 8) (s : State) : Answer :=
  partEvent s fun s =>
    s.moveChannel c ((s.sensing.channel c).take (classify c (sampleMean conversions)))

/-- HOLD_TIMER_EXPIRY (R10). -/
def execHoldTimerExpiry (c : AnalogChannel) (s : State) : Answer :=
  partEvent s fun s => s.moveChannel c (s.sensing.channel c).expire

/-! ### Contacts and tachometers -/

/-- R13: one 50 ms sample of a contact, whose pin is high while the contact is open. -/
def ContactInput.sample (c : ContactInput) (high : Bool) : ContactInput :=
  if !high = c.closed then { c with count := 0 }
  else if c.count + 1 < 4 then { c with count := c.count + 1 }
  else ⟨!high, 0⟩

/-- R15: one 20 kHz sample of a tachometer input. -/
def TachInput.sample (t : TachInput) (high : Bool) : TachInput :=
  match t.accepted with
  | none => { t with accepted := some high, differs := false }
  | some level =>
    if high = level then { t with differs := false }
    else if t.differs then
      { t with accepted := some high, differs := false, pulses := t.pulses + (if high then 1 else 0) }
    else { t with differs := true }

/-- R16: the close of the one-second window, after its samples. -/
def TachInput.close (t : TachInput) (samples : List Bool) : TachInput :=
  let counted := samples.foldl TachInput.sample t
  { counted with speed := min 65535 (counted.pulses * 30), pulses := 0 }

/-! ### Moisture arithmetic -/

/-- R17: the saturation table. -/
def saturationTable : List Nat :=
  [8, 14, 23, 39, 63, 102, 160, 248, 377, 540, 763, 1065, 1470, 2008, 2720, 3658, 4889, 6506, 8635, 11459,
   15245]

/-- R17: entry `i` of the saturation table. -/
def saturation (i : Nat) : Nat := saturationTable.getD i 0

/-- R18: the moisture content of air at `t` (0.1 °C) and `rh` (0.1 %RH), in 0.01 g/kg. -/
def moisture (t rh : Int) : Nat :=
  let u := (clampInt (-400) 600 t + 400).toNat
  let i := min 19 (u / 50)
  let f := u - 50 * i
  let xs := saturation i + roundDiv ((saturation (i + 1) - saturation i) * f) 50
  roundDiv (xs * (clampInt 0 1000 rh).toNat) 1000

/-- R19: the largest index whose entry is at or below `x`. -/
def saturationIndex (x : Nat) : Nat := saturationTable.countP (fun e => decide (e ≤ x)) - 1

/-- R19: the dew point of air of moisture content `x`, in 0.1 °C. -/
def dewPoint (x : Nat) : Int :=
  if x < 8 then -400
  else if 15245 ≤ x then 600
  else
    let i := saturationIndex x
    50 * (i : Int) + roundDiv (50 * (x - saturation i)) (saturation (i + 1) - saturation i) - 400

/-- R20: the moisture content of a pair of channels, absent unless both are usable. -/
def pairMoisture (t rh : Channel) : Option Nat :=
  match t.usable, rh.usable with
  | some t, some rh => some (moisture t rh)
  | _, _ => none

/-- R20: the outdoor moisture content. -/
def Sensing.outdoorMoisture (x : Sensing) : Option Nat := pairMoisture x.oa x.outdoorRh

/-- R20: the extract moisture content. -/
def Sensing.extractMoisture (x : Sensing) : Option Nat := pairMoisture x.ea x.extractRh

/-- R20: the extract dew point. -/
def Sensing.dewPoint (x : Sensing) : Option Int := x.extractMoisture.map Machine.dewPoint

end Sys2Proof.Machine
end

