-- ==== Sys2Proof/Machine/Resolver.lean ====
section
/-! DEFINITION. The resolution of the demands and orders into flow targets (R89 to R99): eight steps, each a
function of the result of the one before. -/

namespace Sys2Proof.Machine

/-- R24: the handle of a live record. -/
def DemandRecord.handle (r : DemandRecord) : Half := BitVec.ofNat 16 (r.gen * 256 + r.entry.val)

/-- R27: the record is ACTIVE and of a kind. -/
def DemandRecord.asks (k : Kind) (r : DemandRecord) : Bool := r.kind = k && !r.held

/-- R91: the oldest record of the lowest level. -/
def lowest (records : List DemandRecord) : Option DemandRecord :=
  records.foldl (fun best r =>
    match best with
    | none => some r
    | some b => if r.level < b.level then some r else some b) none

/-- R91: the oldest record of the highest level. -/
def highest (records : List DemandRecord) : Option DemandRecord :=
  records.foldl (fun best r =>
    match best with
    | none => some r
    | some b => if b.level < r.level then some r else some b) none

/-- What step 1 finds: the demand level and what set it. -/
structure Asked where
  level : Nat
  source : DSource
  handle : Half
  deriving DecidableEq, Repr

/-- R90: the ACTIVE HOLD filed most recently. -/
def newestHold (live : List DemandRecord) : Option DemandRecord := (live.filter (·.asks .hold)).getLast?

/-- R91: the start level, the smallest SETBACK or else BASE_LEVEL. -/
def startLevel (p : Params) (live : List DemandRecord) : Asked :=
  match lowest (live.filter (·.asks .setback)) with
  | some r => ⟨r.level, .setback, r.handle⟩
  | none => ⟨p.nat .baseLevel, .base, 0⟩

/-- R90 and R91: step 1. -/
def stepDemand (p : Params) (live : List DemandRecord) : Asked :=
  match newestHold live with
  | some r => ⟨r.level, .hold, r.handle⟩
  | none =>
    match highest (live.filter (·.asks .boost)) with
    | some r => if (startLevel p live).level < r.level then ⟨r.level, .boost, r.handle⟩ else startLevel p live
    | none => startLevel p live

/-- R92: step 2, skipped for a HOLD at level 0. -/
def stepLimits (p : Params) (a : Asked) : Nat :=
  if a.source = .hold ∧ a.level = 0 then a.level
  else clampNat (min (p.nat .minLevel) (p.nat .maxLevel)) (p.nat .maxLevel) a.level

/-- R93: a slot is empty. -/
def Filters.missing (f : Filters) : Bool := f.supply.isNone || f.extract.isNone

/-- R93: a slot holds a record in a state. -/
def Filters.anyIn (f : Filters) (x : FilterState) : Bool :=
  f.supply.any (·.state = x) || f.extract.any (·.state = x)

/-- R93: the first part of step 3. -/
def stepMissing (p : Params) (f : Filters) (d : Nat) : Nat :=
  if f.missing then min d (p.nat .minLevel) else d

/-- R93: the second part of step 3. -/
def stepOverdue (p : Params) (f : Filters) (d : Nat) : Nat :=
  if f.anyIn .overdue then min d (p.nat .overdueCap) else d

/-- R94: the base supply target. -/
def baseSupply (p : Params) (d : Nat) : Nat := roundDiv (d * p.nat .nominalFlow) 100

/-- R94: the base extract target. -/
def baseExtract (p : Params) (s0 : Nat) : Nat := roundDiv (s0 * p.nat .extractRatio) 100

/-- R95: the stage in which the reduction r counts. -/
def Stage.limits : Stage → Bool
  | .limit | .cycle => true
  | .clear | .watch | .stop => false

/-- R95: step 5. -/
def stepFrost (p : Params) (g : Frost) (s0 : Nat) : Nat :=
  if g.windows.reduce then roundDiv (s0 * p.nat .defrostSupply) 100
  else if g.stage.limits then roundDiv (s0 * (100 - g.reduction)) 100
  else s0

/-- R96: the allowance. -/
def allowance (p : Params) (g : Frost) : Nat :=
  if g.windows.reduce then p.nat .defrostAllowance else p.nat .imbalanceLimit

/-- R96: step 6. -/
def stepBalance (a s1 e0 : Nat) : Nat := clampNat (s1 - a) (s1 + a) e0

/-- R97: a fan is available, in IDLE and RUNNING. -/
def FanState.available : FanState → Bool
  | .idle | .running => true
  | .faultRest | .locked => false

/-- R97: step 7, on the pair of targets. -/
def stepAvailability (sup ext : Bool) (a s1 e1 : Nat) : Nat × Nat :=
  let x := if sup then (s1, e1) else (0, min e1 a)
  if ext then x else (min x.1 a, 0)

/-- R89: the modes without targets. -/
def Mode.stopped : Mode → Bool
  | .startup | .standby => true
  | .run | .commission => false

/-- R89: the view is zero, in STARTUP and STANDBY and in the stage STOP. -/
def State.zeroTargets (s : State) : Bool := s.resolver.mode.stopped || s.frost.stage = .stop

/-- R87 to R99: the resolution of the inputs as they now stand. -/
def resolve (s : State) : View :=
  let p := s.params
  let a := allowance p s.frost
  if s.zeroTargets then .zero a
  else
    let asked := stepDemand p s.demand.live
    let d2 := stepLimits p asked
    let d3 := stepMissing p s.filters d2
    let d := stepOverdue p s.filters d3
    let s0 := baseSupply p d
    let e0 := baseExtract p s0
    let s5 := stepFrost p s.frost s0
    let e6 := stepBalance a s5 e0
    let sup := s.drive.sup.state.available
    let ext := s.drive.ext.state.available
    let t := stepAvailability sup ext a s5 e6
    { d, source := asked.source, handle := asked.handle, s0, e0, a, s1 := t.1, e1 := t.2
      preheat := if t.1 = 0 then 0 else s.frost.preheat
      reasons := reasonSet (asked.level < d2) (d2 < asked.level) (d3 < d2) (d < d3)
        (!s.frost.windows.reduce && s.frost.stage.limits && s5 < s0) s.frost.windows.reduce (e6 != e0)
        (!sup) (!ext) }

end Sys2Proof.Machine
end

