-- ==== Sys2Proof/Machine/FanDrive.lean ====
section
/-! DEFINITION. The fan drive's shared operations: the calibration lookup (R110, R112), the requested duty (R109),
the start, drop and redirect of a ramp (R113 to R115), steadiness (R116), the preheater's effective duty (R123)
and the recompute of the resolution with all it hands to the drive (R87, R88). -/

namespace Sys2Proof.Machine

/-! ### Calibration -/

/-- R110, last case: the interval that holds `q`, from the first of `points` on. -/
def interpolateDuty : List CalPoint → Nat → Nat
  | a :: b :: rest, q =>
    if q < b.flow then a.duty + roundDiv ((q - a.flow) * (b.duty - a.duty)) (b.flow - a.flow)
    else interpolateDuty (b :: rest) q
  | _, _ => 0

/-- R110: the duty for a lookup flow. -/
def CalTable.dutyFor (t : CalTable) (q : Nat) : Nat :=
  if q = 0 then 0
  else if q ≤ t[0].flow then t[0].duty
  else if t[5].flow ≤ q then t[5].duty
  else interpolateDuty t.toList q

/-- R112, last case: the interval that holds the duty `c`, from the first of `points` on. -/
def interpolateFlow : List CalPoint → Nat → Nat
  | a :: b :: rest, c =>
    if c < b.duty then a.flow + roundDiv ((c - a.duty) * (b.flow - a.flow)) (b.duty - a.duty)
    else interpolateFlow (b :: rest) c
  | _, _ => 0

/-- R112: the flow the table gives for a commanded duty. -/
def CalTable.flowAt (t : CalTable) (c : Nat) : Nat :=
  if c = 0 then 0
  else if c < t[0].duty then roundDiv (t[0].flow * c) t[0].duty
  else if t[5].duty ≤ c then t[5].flow
  else interpolateFlow t.toList c

/-- R106: the first duty of a fan. -/
def State.firstDuty (s : State) (f : FanId) : Nat := (s.drive.cals.table f)[0].duty

/-- R112: the extract estimate. -/
def State.extractEstimate (s : State) : Nat := CalTable.flowAt s.drive.cals.ext s.drive.ext.commanded

/-- R112: the supply estimate, the table's estimate divided by the trim. -/
def State.supplyEstimate (s : State) : Nat :=
  roundDiv (CalTable.flowAt s.drive.cals.sup s.drive.sup.commanded * 1000) s.drive.trim

/-- R112: the flow estimate of a fan. -/
def State.estimate (s : State) : FanId → Nat
  | .sup => s.supplyEstimate
  | .ext => s.extractEstimate

/-! ### From a target to a requested duty -/

/-- R109 case 3: the lookup flow of a fan. -/
def State.lookupFlow (s : State) : FanId → Nat
  | .sup => roundDiv (s.resolver.view.s1 * s.drive.trim) 1000
  | .ext => s.resolver.view.e1

/-- R109: a request, and whether a request of 0 comes with a drop (R114). -/
structure DutyRequest where
  duty : Nat
  drop : Bool
  deriving DecidableEq, Repr

/-- R109 case 4: a DIRECT value above 0 and below the first duty is raised to it. -/
def raiseToFirst (first value : Nat) : Nat := if 0 < value ∧ value < first then first else value

/-- R109 cases 1 and 2: the fan's request is 0, with a drop. -/
def State.forcedToZero (s : State) (f : FanId) : Bool :=
  !(s.drive.fan f).state.available || s.zeroTargets

/-- R109: the request of a fan, from its source and surroundings. -/
def State.fanRequest (s : State) (f : FanId) : DutyRequest :=
  if s.forcedToZero f then ⟨0, true⟩
  else
    match (s.drive.fan f).source with
    | .auto => ⟨CalTable.dutyFor (s.drive.cals.table f) (s.lookupFlow f), false⟩
    | .direct v => ⟨raiseToFirst (s.firstDuty f) v, false⟩

/-! ### The ramp -/

/-- R113: the slew interval in milliseconds. -/
def Params.slewInterval (p : Params) : Nat := roundDiv 1000 (p.nat .slewRate)

/-- R114, the drop: the commanded duty is 0 at once and a RUNNING fan becomes IDLE. -/
def Fan.drop (x : Fan) : Fan :=
  if x.state = .running then
    { x with requested := 0, commanded := 0, step := none, state := .idle, stall := 0 }
  else { x with requested := 0, commanded := 0, step := none }

/-- R114, the start: the commanded duty jumps to the first duty. -/
def Fan.start (x : Fan) (duty first interval : Nat) : Fan :=
  { x with requested := duty, commanded := first, state := .running
           step := if duty = first then none else some interval }

/-- R115, the redirect: the ramp goes on from the commanded duty and a running step timer runs on. -/
def Fan.redirect (x : Fan) (duty interval : Nat) : Fan :=
  { x with requested := duty
           step := if x.commanded = duty then none else some (x.step.getD interval) }

/-- R113 to R115: a fan takes a request formed for it. -/
def Fan.follow (x : Fan) (r : DutyRequest) (first interval : Nat) : Fan :=
  if r.drop then x.drop
  else if x.commanded ≠ 0 then x.redirect r.duty interval
  else if 0 < r.duty then x.start r.duty first interval
  else { x with requested := 0, step := none }

/-- A fan takes new items; a change of its commanded duty restarts the steadiness timer (R116). -/
def Drive.moveFan (d : Drive) (f : FanId) (x : Fan) : Drive :=
  if x.commanded = (d.fan f).commanded then d.setFan f x else { d.setFan f x with elapsed := 0 }

/-- A fan takes new items in the state. -/
def State.moveFan (s : State) (f : FanId) (x : Fan) : State := { s with drive := s.drive.moveFan f x }

/-- R109: the requested duty of a fan is formed again and its ramp follows. -/
def State.formRequest (s : State) (f : FanId) : State :=
  s.moveFan f ((s.drive.fan f).follow (s.fanRequest f) (s.firstDuty f) s.params.slewInterval)

/-- R113: one step of the ramp, or the end of a ramp-down. -/
def Fan.slew (x : Fan) (first interval : Nat) : Fan :=
  let c :=
    if x.commanded < x.requested then x.commanded + 1
    else if 0 < x.requested then x.commanded - 1
    else if first < x.commanded then x.commanded - 1
    else 0
  if c = 0 then { x with commanded := 0, state := .idle, step := none, stall := 0 }
  else { x with commanded := c, step := if c = x.requested then none else some interval }

/-! ### Steadiness and the preheater -/

/-- R116: each fan's commanded duty equals its requested duty, and each fan is RUNNING or IDLE. -/
def Drive.matched (d : Drive) : Bool :=
  d.sup.commanded == d.sup.requested && d.ext.commanded == d.ext.requested
    && d.sup.state.available && d.ext.state.available

/-- R116: the three conditions of steadiness hold. -/
def State.steadyNow (s : State) : Bool :=
  s.drive.matched && decide (s.params.nat .steadyTime * 1000 ≤ s.drive.elapsed)

/-- R116 and R144: steadiness is judged afresh; its loss clears the fresh flag of the FLOW entry. -/
def State.refreshSteady (s : State) : State :=
  { s with drive := { s.drive with steady := s.steadyNow }
           pressure := { s.pressure with fresh := s.pressure.fresh && (s.steadyNow || !s.drive.steady) } }

/-- R123: the requested preheat duty. -/
def State.requestedPreheat (s : State) : Nat :=
  match s.drive.preheater.source with
  | .auto => s.resolver.view.preheat
  | .direct v => v

/-- R123: the effective duty, 0 whenever the supply fan is not running or its commanded duty is 0. -/
def State.effectivePreheat (s : State) : Nat :=
  if s.drive.sup.commanded = 0 ∨ s.drive.sup.state ≠ .running then 0 else s.requestedPreheat

/-- R123: the effective duty is formed again; a change acts at once against the time already passed in the
period. -/
def State.refreshPreheat (s : State) : State :=
  if s.effectivePreheat = s.drive.preheater.effective then s
  else
    { s with drive :=
      { s.drive with preheater :=
        { s.drive.preheater with
          effective := s.effectivePreheat
          pin := decide (s.clock.ms - s.drive.preheater.periodStart < s.effectivePreheat * 100) } } }

/-- The drive's own consequences of a change in it, within the same event. -/
def State.driveTail (s : State) : State := s.refreshPreheat.refreshSteady

/-- R88: the drive takes the view's targets and preheat request. -/
def State.handTargets (s : State) : State := ((s.formRequest .sup).formRequest .ext).driveTail

/-- R87 and R88: the resolver recomputes the whole view and hands it on. -/
def State.recompute (s : State) : State :=
  { s with resolver := { s.resolver with view := resolve s } }.handTargets

end Sys2Proof.Machine
end

