-- ==== Sys2Proof/Machine/Pressure.lean ====
section
/-! DEFINITION. The pressure channel's shared operations: gates (R132), grants (R133), aborts (R134), withdrawals
(R135) and the periods of its timers (R136 to R138). -/

namespace Sys2Proof.Machine

/-- R132: CLEAR and WATCH. -/
def Stage.calm : Stage → Bool
  | .clear | .watch => true
  | .limit | .cycle | .stop => false

/-- R132: the gate of a requester is open. -/
def State.gateOpen (s : State) : Requester → Bool
  | .frost =>
    (if s.frost.stage = .cycle then s.frost.windows.gate else s.drive.steady)
      && s.drive.ext.state = .running
  | .trim => s.drive.steady && s.drive.sup.state = .running && !s.frost.windows.reduce
  | .filter =>
    s.drive.steady && s.drive.sup.state = .running && s.drive.ext.state = .running && s.frost.stage.calm
  | .link => true

/-- R133: the order of the grants. -/
def grantOrder : List Requester := [.frost, .trim, .link, .filter]

/-- R133: the requester has a WAITING request and its gate is open. -/
def State.eligible (s : State) (r : Requester) : Bool :=
  (s.pressure.request r).any (fun q => !q.granted) && s.gateOpen r

/-- R133: the requester to be granted, with the exception after two grants to FROST. -/
def State.nextGrant (s : State) : Option Requester :=
  let waiting := grantOrder.filter s.eligible
  if s.pressure.history = [.frost, .frost] then
    match waiting.find? (· ≠ .frost) with
    | some r => some r
    | none => waiting.head?
  else waiting.head?

/-- R133: the grant history with one more grant, the older entry falling out. -/
def pushHistory (h : List Requester) (r : Requester) : List Requester := (h ++ [r]).drop (h.length - 1)

/-- R126: the selector is driven to a tap. -/
def Pressure.driveSelector (p : Pressure) (t : Tap) (now : Nat) : Pressure :=
  if p.position = t then p else { p with position := t, arrival := now }

/-- R129: the 4 s at position that a settle takes, in milliseconds. -/
def settleTime : Nat := 4000

/-- R129 and R133: a grant. The selector is driven to the tap, and the measurement begins in SELECT, or in SAMPLE
where the selector has been at the tap for 4 s. A granted LINK request makes its record IN_PROGRESS (R139). -/
def Pressure.begin (p : Pressure) (r : Requester) (q : Request) (now : Nat) : Pressure :=
  let moved := (p.setRequest r (some { q with granted := true })).driveSelector q.tap now
  let flight : Flight := ⟨r, q.tap, q.slot, 0, 0, false⟩
  { moved with
    history := pushHistory p.history r
    phase := if settleTime ≤ now - moved.arrival then .sample flight else .select flight
    record := if r = .link then { p.record with state := .inProgress } else p.record }

/-- R133: a grant is made where the channel is FREE and a waiting request has an open gate. -/
def State.grant (s : State) : State :=
  match s.pressure.phase, s.nextGrant with
  | .free, some r =>
    match s.pressure.request r with
    | some q => { s with pressure := s.pressure.begin r q s.clock.ms }
    | none => s
  | _, _ => s

/-- R134: the measurement in flight is aborted and its request returns to WAITING. -/
def Pressure.abort (p : Pressure) : Pressure :=
  match p.phase.flight with
  | some f =>
    { p.setRequest f.requester ((p.request f.requester).map fun q => { q with granted := false }) with
      phase := .free }
  | none => p

/-- R134: the gate of the granted request is judged; where it has closed, the measurement is aborted. -/
def State.judgeGates (s : State) : State :=
  match s.pressure.phase.flight with
  | some f => if s.gateOpen f.requester then s else { s with pressure := s.pressure.abort }
  | none => s

/-- R133 and R134: what an event that bears on the gates or frees the channel ends with. -/
def State.channelTail (s : State) : State := s.judgeGates.grant

/-- An event that changes an input of the resolver: the recompute, and what the pressure channel makes of it. -/
def State.inputChanged (s : State) : State := s.recompute.channelTail

/-- R133: a request is filed into an empty slot as WAITING. -/
def Pressure.file (p : Pressure) (r : Requester) (t : Tap) (slot : Option FilterSlot) : Pressure :=
  if (p.request r).isNone then p.setRequest r (some ⟨t, slot, false⟩) else p

/-- R135: a request is withdrawn from its slot, its measurement aborted where it is in flight. -/
def Pressure.withdraw (p : Pressure) (r : Requester) : Pressure :=
  let emptied := p.setRequest r none
  match p.phase.flight with
  | some f => if f.requester = r then { emptied with phase := .free } else emptied
  | none => emptied

/-- R135 and R141: the LINK request, WAITING or GRANTED, is withdrawn; its record becomes ABORTED with the cause
and the MEASURE notice is set. -/
def State.abortLink (s : State) (cause : AbortCause) : State :=
  { s with pressure :=
    { s.pressure.withdraw .link with
      record := { s.pressure.record with state := .aborted, cause := some cause } } }.notify .measure

/-! ### Timers -/

/-- R136: the TRIM timer starts. -/
def Params.trimPeriod (p : Params) : Nat := p.nat .flowPeriod * 1000

/-- R137: the FILTER timer's period in milliseconds. -/
def Params.filterMs (p : Params) : Nat := p.nat .filterPeriod * 60000

/-- R138: the period of the FROST timer by stage, in milliseconds; absent where the stage has none. -/
def frostPeriod (p : Params) (learnt : Bool) : Stage → Option Nat
  | .clear => if learnt then none else some p.filterMs
  | .watch => some 60000
  | .limit => some 20000
  | .cycle | .stop => none

/-- R138: the FROST timer starts at the period of the stage now standing, or stops. -/
def State.restartFrostTimer (s : State) : State :=
  { s with pressure :=
    { s.pressure with frostTimer := frostPeriod s.params s.frost.baseline.pn0.isSome s.frost.stage } }

end Sys2Proof.Machine
end

