-- ==== Sys2Proof/Machine/Frost.lean ====
section
/-! DEFINITION. The frost guard: frost reference and margin (R149), counts (R150), stages (R151 to R155), orders
(R156), the defrost cycle (R157 to R161), fallback (R162, R163) and the exchanger baseline (R165 to R167), with
the meanings of FROST_EVALUATION, WINDOW_EDGE, CYCLE_WRAP and RELEARN_EXCHANGER. -/

namespace Sys2Proof.Machine

/-! ### Windows and orders -/

/-- R158: a window is active while start ≤ counter < end. -/
def windowActive (start stop counter : Nat) : Bool := decide (start ≤ counter ∧ counter < stop)

/-- R158: the windows active at a value of the counter. -/
def CycleTimes.windowsAt (t : CycleTimes) (counter : Nat) : Windows :=
  { preheat := windowActive t.preheatStart t.preheatEnd counter
    reduce := windowActive t.reduceStart t.reduceEnd counter
    gate := windowActive t.gateStart t.gateEnd counter }

/-- R158: the next value of the counter, up to the latched limit, at which a window opens or closes. -/
def CycleTimes.nextEdge (t : CycleTimes) (counter : Nat) : Option Nat :=
  ([t.preheatStart, t.preheatEnd, t.reduceStart, t.reduceEnd, t.gateStart, t.gateEnd].filter fun c =>
    decide (counter < c) && decide (c ≤ t.limit) && (t.windowsAt c != t.windowsAt counter)).min?

/-- A preheater is fitted. -/
def Params.preheater (p : Params) : Bool := p.get .preheatFitted = 1

/-- R156: the orders in LIMIT at margin `m`: the reduction, or the preheat order where a preheater is fitted. -/
def limitOrders (p : Params) (m : Int) : Nat × Nat :=
  let shortfall := p.get .frostLimit - m
  if p.preheater then (0, (clampInt 0 100 (symRound (p.get .preheatGain * shortfall) 10)).toNat)
  else ((clampInt 0 (p.get .frostReduceMax) (symRound (p.get .frostReduceGain * shortfall) 10)).toNat, 0)

/-- R162: the fallback stage, by the first row that applies to OA. -/
def fallbackStage (p : Params) : Option Int → Stage
  | none => .cycle
  | some oa =>
    if oa ≤ p.get .stopOa then .stop
    else if oa ≤ -150 then .cycle
    else if oa ≤ -50 then .limit
    else if oa ≤ 0 then .watch
    else .clear

/-- R162: the orders of the fallback row of OA; inside the PREHEAT window a fitted preheater is at 100. -/
def fallbackOrders (p : Params) (oa : Option Int) (window : Bool) : Nat × Nat :=
  let row := (fallbackStage p oa).limits
  if p.preheater then (0, if window then 100 else if row then 50 else 0)
  else (if row then roundDiv (p.nat .frostReduceMax) 2 else 0, 0)

/-- R156: the PREHEAT window puts a fitted preheater at 100. -/
def windowOrders (p : Params) (window : Bool) (orders : Nat × Nat) : Nat × Nat :=
  if window then (orders.1, if p.preheater then 100 else 0) else orders

/-- R156 and R162: the orders that the guard's present state forms. With neither a margin nor FALLBACK, which no
evaluation leaves behind, the orders stay as they are. -/
def Frost.orders (p : Params) (oa : Option Int) (g : Frost) : Nat × Nat :=
  if g.fallback then fallbackOrders p oa (g.stage = .cycle && g.windows.preheat)
  else if g.stage.limits then
    match g.margin with
    | some m => windowOrders p (g.stage = .cycle && g.windows.preheat) (limitOrders p m)
    | none => (g.reduction, g.preheat)
  else (0, 0)

/-- R156: the orders are formed afresh. -/
def Frost.formOrders (p : Params) (oa : Option Int) (g : Frost) : Frost :=
  { g with reduction := (g.orders p oa).1, preheat := (g.orders p oa).2 }

/-! ### Changes of stage -/

/-- R157 and R163: a cycle begins. -/
def Frost.startCycle (p : Params) (g : Frost) : Frost :=
  { g with latched := p.cycleTimes, counter := 1, gateResult := none
           windows := p.cycleTimes.windowsAt 1, unjudged := g.fallback }

/-- R157, R158, R161, R163: the cycles stop. -/
def Frost.stopCycle (g : Frost) : Frost :=
  { g with counter := 0, windows := .closed, gateResult := none, unjudged := false }

/-- R150 and R155: the counts become 0. -/
def Frost.clearCounts (g : Frost) : Frost := { g with hold := 0, saturation := 0, ice := 0, stopTimer := 0 }

/-- R155: the guard enters another stage. The failed count stays at the change from CYCLE to STOP with the reason
ICED and becomes 0 at every other. -/
def Frost.enter (p : Params) (oa : Option Int) (stage : Stage) (reason : Reason) (g : Frost) : Frost :=
  let keeps := g.stage = .cycle && stage = .stop && reason = .iced
  let g1 := { g.clearCounts with stage, reason, failed := if keeps then g.failed else 0 }
  (if stage = .cycle then g1.startCycle p else g1.stopCycle).formOrders p oa

/-! ### Normal evaluations -/

/-- R150: the timed exit condition of the present stage, and the count at which its transition is taken; absent
where the stage has none. -/
def Frost.exitCondition (p : Params) (oa : Option Int) (m : Int) (g : Frost) : Option (Bool × Nat) :=
  match g.stage with
  | .watch => some (decide (p.get .frostWatch + 15 ≤ m), 60)
  | .limit => some (decide (p.get .frostLimit + 10 ≤ m), 30)
  | .stop => if g.reason = .cold then some (oa.any fun t => decide (p.get .stopOa + 30 ≤ t), 180) else none
  | .clear | .cycle => none

/-- R150: the hold count at this evaluation. -/
def Frost.nextHold (p : Params) (oa : Option Int) (m : Int) (g : Frost) : Nat :=
  match g.exitCondition p oa m with
  | some (true, top) => min top (g.hold + 1)
  | _ => 0

/-- R150: the order, as it stood after the previous evaluation, has reached its end. FROST_REDUCE_MAX and PREHEAT_FITTED are
read as they stand at this evaluation, and a reduction that stood at its end before a preheater was fitted still counts (DESIGN
CHOICE, assumption 40). -/
def Frost.orderAtEnd (p : Params) (g : Frost) : Bool :=
  g.priorReduction = p.nat .frostReduceMax || (p.preheater && g.priorPreheat = 100)

/-- R150: the saturation count at this evaluation. -/
def Frost.nextSaturation (p : Params) (m : Int) (g : Frost) : Nat :=
  if g.stage = .limit && g.orderAtEnd p && decide (m ≤ 0) then min 180 (g.saturation + 1) else 0

/-- R150: the orders as they stand after an evaluation are kept for the next one. -/
def Frost.keepOrders (g : Frost) : Frost := { g with priorReduction := g.reduction, priorPreheat := g.preheat }

/-- R150: step 6 of R149 updates the counts. -/
def Frost.updateCounts (p : Params) (oa : Option Int) (m : Int) (g : Frost) : Frost :=
  { g with hold := g.nextHold p oa m, saturation := g.nextSaturation p m }

/-- R152 to R154: the present stage's own transitions. -/
def Frost.ownTransition (p : Params) (oa : Option Int) (m : Int) (g : Frost) : Frost :=
  match g.stage with
  | .clear => if m ≤ p.get .frostWatch then g.enter p oa .watch .margin else g
  | .watch =>
    if m ≤ p.get .frostLimit then g.enter p oa .limit .margin
    else if 60 ≤ g.hold then g.enter p oa .clear .margin
    else g
  | .limit =>
    if 2 ≤ g.ice then g.enter p oa .cycle .ice
    else if 180 ≤ g.saturation then g.enter p oa .cycle .saturated
    else if 30 ≤ g.hold then g.enter p oa .watch .margin
    else g
  | .cycle => g
  | .stop =>
    if g.reason = .cold ∧ 180 ≤ g.hold then g.enter p oa .limit .warmed
    else if g.reason = .iced ∧ 3600 ≤ g.stopTimer then g.enter p oa .cycle .retry
    else g

/-- R151: OA is usable and at or below STOP_OA. -/
def tooCold (p : Params) (oa : Option Int) : Bool := oa.any fun t => decide (t ≤ p.get .stopOa)

/-- R151: the one stage change of a normal evaluation. -/
def Frost.judge (p : Params) (oa : Option Int) (m : Int) (g : Frost) : Frost :=
  if tooCold p oa && !(g.stage = .stop && g.reason = .cold) then
    if g.stage = .stop then { g.clearCounts with reason := .cold }
    else g.enter p oa .stop .cold
  else g.ownTransition p oa m

/-- R149 steps 5 to 7 and R163: a normal evaluation. -/
def Frost.evaluate (p : Params) (oa : Option Int) (m : Int) (g : Frost) : Frost :=
  let g1 := if g.fallback then { g with fallback := false, hold := 0, saturation := 0, ice := 0 } else g
  (((g1.updateCounts p oa m).judge p oa m).formOrders p oa).keepOrders

/-! ### Fallback -/

/-- R162 and R163: a fallback evaluation. -/
def Frost.fallbackEvaluate (p : Params) (oa : Option Int) (g : Frost) : Frost :=
  let g1 := { g with fallback := true, hold := 0, saturation := 0, ice := 0 }
  let row := fallbackStage p oa
  let g2 :=
    if g.stage = .cycle then
      if row = .stop then g1.enter p oa .stop .outdoor else { g1 with unjudged := true }
    else if row = g.stage then g1
    else g1.enter p oa row .outdoor
  (g2.formOrders p oa).keepOrders

/-! ### The guard in the part -/

/-- The value of OA that the guard reads (R12). -/
def State.frostOa (s : State) : Option Int := s.sensing.oa.usable

/-- R149 step 1: the frost reference. -/
def frostReference (dew : Option Int) : Int := min (dew.getD 0) 0

/-- R155, R156, R158: what a change of the guard from `old` hands on: the FROST notice and the FROST timer at a
change of stage, the FROST request at an opening of the GATE window, the recompute at a change of what the
resolver reads (R87), and the gates. -/
def State.handFrost (s : State) (old : Frost) (gateOpens : Bool) : State :=
  let staged := s.frost.stage != old.stage
  let s1 := if staged then (s.notify .frost).restartFrostTimer else s
  let s2 := if gateOpens then { s1 with pressure := s1.pressure.file .frost .exch none } else s1
  let s3 :=
    if staged || s.frost.reduction != old.reduction || s.frost.preheat != old.preheat
        || s.frost.windows.reduce != old.windows.reduce then s2.recompute
    else s2
  s3.channelTail

/-- The guard takes a new state and hands on what has changed. -/
def State.moveFrost (s : State) (g : Frost) : State :=
  { s with frost := g }.handFrost s.frost (g.windows.gate && !s.frost.windows.gate)

/-- R149 steps 1 and 2: the guard with the Tf and m of this evaluation. -/
def State.readMargin (s : State) : Frost :=
  let tf := frostReference s.sensing.dewPoint
  { s.frost with tf := some tf, margin := s.sensing.eha.usable.map (· - tf) }

/-- R149: an evaluation. -/
def State.evaluateFrost (s : State) : State :=
  let g := s.readMargin
  if s.resolver.mode.stopped then { s with frost := g.keepOrders }
  else
    match g.margin with
    | none => s.moveFrost (g.fallbackEvaluate s.params s.frostOa)
    | some m => s.moveFrost (g.evaluate s.params s.frostOa m)

/-- FROST_EVALUATION (R149). -/
def execFrostEvaluation (s : State) : Answer := partEvent s State.evaluateFrost

/-- R156 and R158: the counter reaches a value at which windows open or close. At an edge of the PREHEAT window in FALLBACK
the row is that of OA as it stands at the edge (DESIGN CHOICE, assumption 41). -/
def Frost.reachEdge (p : Params) (oa : Option Int) (counter : Nat) (g : Frost) : Frost :=
  let g1 := { g with counter, windows := g.latched.windowsAt counter }
  if g1.windows.preheat = g.windows.preheat then g1 else g1.formOrders p oa

/-- WINDOW_EDGE (R158): the cycle counter reaches the next latched start or end. -/
def execWindowEdge (s : State) : Answer :=
  partEvent s fun s =>
    if s.frost.stage = .cycle then
      match s.frost.latched.nextEdge s.frost.counter with
      | some c => s.moveFrost (s.frost.reachEdge s.params s.frostOa c)
      | none => s
    else s

/-- R160 and R163: what a wrap decides: the next cycle, or another stage, each with the failed count. -/
inductive WrapVerdict where
  | next (failed : Nat)
  | leave (stage : Stage) (reason : Reason) (failed : Nat)
  deriving DecidableEq, Repr

/-- R160 cases 2 and its outcomes: the cycle has failed. -/
def failedVerdict (failed : Nat) : WrapVerdict :=
  if 4 ≤ failed + 1 then .leave .stop .iced 4 else .next (failed + 1)

/-- R160: the judgement of a measured or unmeasured cycle. -/
def Frost.judgeCycle (p : Params) (g : Frost) : WrapVerdict :=
  match g.gateResult with
  | some .overRange => failedVerdict g.failed
  | some (.ratio n) =>
    if p.nat .clearRatio < n then failedVerdict g.failed
    else if g.margin.any fun m => decide (p.get .frostLimit ≤ m) then .leave .limit .thawed g.failed
    else .next 0
  | none =>
    if g.margin.any fun m => decide (p.get .frostLimit + 10 ≤ m) then .leave .limit .thawed g.failed
    else .next g.failed

/-- R160 and R163: the verdict of a wrap. -/
def Frost.wrapVerdict (p : Params) (oa : Option Int) (g : Frost) : WrapVerdict :=
  if g.fallback then
    if fallbackStage p oa = .cycle then .next g.failed
    else .leave (fallbackStage p oa) .outdoor g.failed
  else if g.unjudged then .next g.failed
  else g.judgeCycle p

/-- R158 and R160: the next cycle begins. An edge of the PREHEAT window forms the orders afresh. -/
def Frost.nextCycle (p : Params) (oa : Option Int) (failed : Nat) (g : Frost) : Frost :=
  let g1 := { g with failed }.startCycle p
  if g.windows.preheat || g1.windows.preheat then g1.formOrders p oa else g1

/-- R157 to R163: a wrap. Where the next cycle begins, the windows first close, which aborts a measurement whose
gate closes, and then open again at the same event (assumption 18). Where the wrap leaves CYCLE, the gate is judged once, in
the stage that then stands, so that with steady fans a FROST measurement goes on (DESIGN CHOICE, assumption 39). -/
def State.wrapCycle (s : State) : State :=
  let g := s.frost
  match g.wrapVerdict s.params s.frostOa with
  | .next failed =>
    let closed := { s with frost := { g with windows := .closed } }.judgeGates
    let g1 := g.nextCycle s.params s.frostOa failed
    { closed with frost := g1 }.handFrost g g1.windows.gate
  | .leave stage reason failed =>
    s.moveFrost ({ g with failed }.enter s.params s.frostOa stage reason)

/-- CYCLE_WRAP (R160). -/
def execCycleWrap (s : State) : Answer :=
  partEvent s fun s => if s.frost.stage = .cycle then s.wrapCycle else s

/-! ### The exchanger and its baseline -/

/-- R146: the ratio of a normalised pressure to a baseline. -/
def ratioOf (pn pn0 : Nat) : Nat := min 999 (roundDiv (100 * pn) pn0)

/-- R166 and R175: a baseline is the rounded mean of eight results, raised to 10. -/
def baselineOf (sum : Nat) : Nat := max 10 (roundDiv sum 8)

/-- R166: a result is learnt. -/
def Baseline.learn (b : Baseline) (pn : Nat) : Baseline :=
  { count := b.count + 1, sum := b.sum + pn
    pn0 := if b.count + 1 < 8 then none else some (baselineOf (b.sum + pn)) }

/-- R165: the effect of a result that shows a ratio or OVER, by the stage: the ice count in LIMIT, the gate result
in CYCLE. -/
def Frost.showRatio (p : Params) (x : RatioResult) (g : Frost) : Frost :=
  let ice :=
    match x with
    | .overRange => true
    | .ratio n => decide (p.nat .iceRatio ≤ n)
  match g.stage with
  | .limit => { g with lastRatio := some x, ice := if ice then min 2 (g.ice + 1) else 0 }
  | .cycle => { g with lastRatio := some x, gateResult := some x }
  | .clear | .watch | .stop => { g with lastRatio := some x }

/-- R165 and R166: the guard takes a completed FROST measurement. An OVER that completes in CYCLE after RELEARN_EXCHANGER is the gate
result as any other (R159, R165: "whatever the baseline's state"), and the wrap is judged by it, where R167 says that wraps are judged
on the margin alone until the baseline is learnt again (DESIGN CHOICE, assumption 50). -/
def Frost.takeResult (p : Params) (steady : Bool) (outcome : MeasureOutcome) (pn : Nat) (g : Frost) : Frost :=
  match outcome with
  | .overRange => g.showRatio p .overRange
  | .lowFlow => g
  | .valid =>
    match g.baseline.pn0 with
    | some pn0 => g.showRatio p (.ratio (ratioOf pn pn0))
    | none => if g.stage.calm && steady then { g with baseline := g.baseline.learn pn } else g

/-- R165: the guard takes a completed FROST measurement; a learnt result changes the baseline block (R166). -/
def State.handExchanger (s : State) (outcome : MeasureOutcome) (pn : Nat) : State :=
  let g := s.frost.takeResult s.params s.drive.steady outcome pn
  { s with frost := g }.changedIf (g.baseline != s.frost.baseline) .exchangerBaseline

/-- R138 and R167: the baseline's change from LEARNT to LEARNING starts the FROST timer in CLEAR. -/
def State.relearnTimer (s : State) (wasLearnt : Bool) : State :=
  if wasLearnt && s.frost.stage = .clear then s.restartFrostTimer else s

/-- R167: the baseline is cleared, and with it a gate result taken against it, OVER among them (assumption 44), so that a
cycle's wrap is judged on the margin alone. -/
def Frost.relearn (g : Frost) : Frost :=
  { g with baseline := .default, ice := 0, lastRatio := none, gateResult := none }

/-- R167: RELEARN_EXCHANGER. -/
def State.relearn (s : State) : State :=
  ((({ s with frost := s.frost.relearn }.relearnTimer s.frost.baseline.pn0.isSome).changed .exchangerBaseline).respond .ok [])

/-- RELEARN_EXCHANGER (R167). -/
def execRelearnExchanger (s : State) : Answer := hostCommand s State.relearn

end Sys2Proof.Machine
end

