-- ==== Sys2Proof/Machine/Reports.lean ====
section
/-! DEFINITION. The reports the host reads (R200, R202), each as its bytes, with the meanings of the commands that
only read: READ_RESOLUTION, READ_SENSORS, READ_STATION, READ_HUMIDITY, READ_MEASURE, READ_TAP, READ_FILTER,
READ_FROST, READ_CAL, READ_FANS and READ_NOTICES. -/

namespace Sys2Proof.Machine

/-! ### Resolution (R104) -/

/-- R200: the READ_RESOLUTION response. -/
def State.resolutionReport (s : State) : List Byte :=
  let v := s.resolver.view
  enumByte Mode.members s.resolver.mode ++ enumByte Mode.members s.resolver.pending
    ++ enumByte Mode.members s.resolver.stored ++ bytesOf 1 v.d ++ enumByte DSource.members v.source
    ++ bytesOfHalf v.handle ++ bytesOf 2 v.s0 ++ bytesOf 2 v.e0 ++ bytesOf 2 v.s1 ++ bytesOf 2 v.e1
    ++ bytesOf 2 v.a ++ bytesOf 1 v.preheat ++ bytesOf 2 v.reasons.toNat

/-- READ_RESOLUTION (R104). -/
def execReadResolution (s : State) : Answer := hostCommand s fun s => s.respond .ok s.resolutionReport

/-! ### Sensors (R21) -/

/-- R202: a temperature channel's status and value. -/
def Channel.temperatureBytes (c : Channel) : List Byte :=
  enumByte ChannelStatus.members c.status ++ temperatureField c.usable

/-- R202: a humidity channel's status and value. -/
def Channel.rhBytes (c : Channel) : List Byte :=
  enumByte ChannelStatus.members c.status ++ quantityField 2 (c.usable.map Int.toNat)

/-- R21: the hold seconds, 0 in any status but HELD. -/
def Channel.holdSeconds (c : Channel) : Nat := if c.status = .held then c.hold else 0

/-- R202: the sensor report. -/
def Sensing.report (x : Sensing) : List Byte :=
  x.oa.temperatureBytes ++ x.sa.temperatureBytes ++ x.ea.temperatureBytes ++ x.eha.temperatureBytes
    ++ x.outdoorRh.rhBytes ++ x.extractRh.rhBytes
    ++ [x.oa, x.sa, x.ea, x.eha, x.outdoorRh, x.extractRh].flatMap (fun c => bytesOf 1 c.holdSeconds)
    ++ bytesOf 1 (bitAt 0 x.cooker.closed + bitAt 1 x.night.closed)
    ++ quantityField 2 x.outdoorMoisture ++ quantityField 2 x.extractMoisture ++ temperatureField x.dewPoint

/-- READ_SENSORS (R21). -/
def execReadSensors (s : State) : Answer := hostCommand s fun s => s.respond .ok s.sensing.report

/-! ### Stations (R66) -/

/-- The live BOOST record of a station (R43). -/
def DemandTable.stationBoost (t : DemandTable) (n : StationId) : Option DemandRecord :=
  t.live.find? fun r => r.origin = .station n && r.kind = .boost

/-- R66: the station an address of 1 to 6 names. -/
def stationOf (address : Byte) : Option StationId :=
  if h : 1 ≤ address.toNat ∧ address.toNat ≤ 6 then some ⟨address.toNat - 1, by omega⟩ else none

/-- R203: the address of a station. -/
def addressOf (n : StationId) : Byte := BitVec.ofNat 8 (n.val + 1)

/-- R202: the station report. An INVALID reading is sent as its absent code (R198), not as the 0 of a field whose absence a packed
byte reports, though its status stands in the flags byte (DESIGN CHOICE, assumption 49). -/
def State.stationReport (s : State) (n : StationId) : List Byte :=
  let x := s.bus.stations[n]
  enumByte StationState.members x.state
    ++ quantityField 1 (x.kind.map (codeOf StationKind.members))
    ++ bytesOf 1 x.misses
    ++ bytesOf 1 (codeOf ChannelStatus.members x.temperature.status
        + 4 * codeOf ChannelStatus.members x.humidity.status
        + bitAt 4 x.presses.isSome + 32 * codeOf Indicator.members x.indicator)
    ++ quantityField 4 (x.lastGood.map (s.clock.seconds - ·))
    ++ temperatureField x.temperature.value
    ++ quantityField 2 (x.humidity.value.map Int.toNat)
    ++ bytesOf 2 x.hold
    ++ packedField 1 (x.presses.map (·.1.toNat)) ++ packedField 1 (x.presses.map (·.2.toNat))
    ++ bytesOfHalf (((s.demand.stationBoost n).map DemandRecord.handle).getD 0)

/-- READ_STATION (R66). -/
def execReadStation (address : Byte) (s : State) : Answer :=
  hostCommand s fun s =>
    match stationOf address with
    | some n => s.respond .ok (s.stationReport n)
    | none => s.refuse .badValue

/-! ### Humidity (R85) -/

/-- The live HUMIDITY record (R49). -/
def DemandTable.humidityRecord (t : DemandTable) : Option DemandRecord :=
  t.live.find? fun r => r.origin = .humidity && r.kind = .boost

/-- R202: the detail of a source's state. -/
def Source.detail (x : Source) : Nat :=
  match x.state with
  | .quiet => x.inhibit
  | .rising => x.level.getD 0 + 128 * x.run
  | .exhausted => x.run
  | .disarmed | .deferred => (x.baseline.map Int.toNat).getD 2047

/-- R202: the source word, the deviation in 11 bits of two's complement with -1024 for absent. -/
def Source.report (x : Source) : List Byte :=
  bytesOf 4 (codeOf SourceState.members x.state + bitAt 3 x.noDrying
    + 16 * ((x.deviation.getD (-1024)) % 2048).toNat + 32768 * x.detail)

/-- R200: the READ_HUMIDITY response. -/
def State.humidityReport (s : State) : List Byte :=
  bytesOfHalf ((s.demand.humidityRecord.map DemandRecord.handle).getD 0)
    ++ SourceId.all.flatMap fun i => (s.humidity.source i).report

/-- READ_HUMIDITY (R85). -/
def execReadHumidity (s : State) : Answer := hostCommand s fun s => s.respond .ok s.humidityReport

/-! ### Pressure (R141, R142) -/

/-- R202: OVER, outcome and flow origin of a result, from the given bit up. -/
def Result.flags (r : Result) : Nat :=
  match r.body with
  | .orifice _ => bitAt 0 r.overRange
  | .element o _ e _ => bitAt 0 r.overRange + 2 * codeOf MeasureOutcome.members o + bitAt 3 e

/-- R125 and R202: a flow in its two bytes. What a flow above 65535 sends, for which the manual gives neither a cap nor a wrap,
is a free value (DESIGN CHOICE, assumption 36). -/
def flowField (q : Nat) : List Byte := bytesOf 2 (if q < 65536 then q else Config.overflowField q)

/-- R202: P, the flow and Pn of a result. Pn reads 0 where the packed outcome reports that the result has none; `noPn` is
what a FLOW result, which has no outcome, sends for it (R198). -/
def Result.values (r : Result) (noPn : Nat) : List Byte :=
  match r.body with
  | .orifice q => bytesOf 2 r.p ++ flowField q ++ bytesOf 2 noPn
  | .element _ flow _ pn => bytesOf 2 r.p ++ flowField flow ++ packedField 2 pn

/-- R202: the phase, and the requester and tap in flight. -/
def Phase.report (x : Phase) : Nat :=
  let code :=
    match x with
    | .free => 0
    | .select _ => 1
    | .sample _ => 2
  match x.flight with
  | some f => code + 4 * codeOf Requester.members f.requester + 16 * codeOf Tap.members f.tap
  | none => code

/-- R202: the grant history. A single entry stands in the newer bits, with the older bits 0 (DESIGN CHOICE, assumption 42). -/
def historyReport : List Requester → Nat
  | [] => 0
  | [r] => 4 * codeOf Requester.members r + 16
  | o :: n :: _ => codeOf Requester.members o + 4 * codeOf Requester.members n + 32

/-- R126: the time at position, in milliseconds. -/
def State.timeAtPosition (s : State) : Nat := s.clock.ms - s.pressure.arrival

/-- R202: the measure report. The record's tap, in its packed byte 0, reports that a FLOW result has no Pn, which then reads 0
(R198, assumption 17). -/
def State.measureReport (s : State) : List Byte :=
  let p := s.pressure
  bytesOf 1 (codeOf LinkState.members p.record.state + 8 * codeOf AbortCause.members p.record.cause
      + 32 * ((p.record.tap.map (codeOf Tap.members)).getD 0))
    ++ packedField 1 (p.record.result.map Result.flags)
    ++ (match p.record.result with
        | some r => r.values 0
        | none => bytesOf 6 0)
    ++ bytesOf 1 p.phase.report
    ++ packedField 1 (p.phase.flight.map Flight.count)
    ++ enumByte Tap.members p.position
    ++ bytesOf 2 (min 65535 (s.timeAtPosition / 1000))
    ++ bytesOf 1 (setOf (Requester.members.map fun r => (p.request r).isSome)
        + 16 * setOf (Requester.members.map s.gateOpen))
    ++ bytesOf 1 (historyReport p.history)

/-- READ_MEASURE (R141). -/
def execReadMeasure (s : State) : Answer := hostCommand s fun s => s.respond .ok s.measureReport

/-- R202: the READ_TAP response for a tap. No packed byte of it reports that a FLOW entry has no Pn, which is then the absent
code 0xFFFF (R198, assumption 17). -/
def State.tapReport (s : State) (t : Tap) : List Byte :=
  enumByte Tap.members t ++
    match s.pressure.entry t with
    | none => bytesOf 1 1 ++ bytesOf 10 0
    | some e =>
      bytesOf 1 (2 * e.result.flags + 32 * codeOf Requester.members e.requester) ++ e.result.values 0xFFFF
        ++ bytesOf 4 (s.clock.seconds - e.second)

/-- READ_TAP (R142). -/
def execReadTap (tap : Byte) (s : State) : Answer :=
  hostCommand s fun s =>
    match memberOf Tap.members tap with
    | some t => s.respond .ok (s.tapReport t)
    | none => s.refuse .badValue

/-! ### Filters (R173) -/

/-- R170: the age of a record in operating hours. -/
def FilterRecord.age (r : FilterRecord) (hours : Nat) : Nat := hours - r.fittedAt

/-- R173: a FILTER request naming the slot is outstanding. -/
def State.filterRequested (s : State) (i : FilterSlot) : Bool :=
  s.pressure.filter.any (·.slot = some i)

/-- R202: the filter report of a slot holding a record, or of an empty one. -/
def State.filterReportOf (s : State) (i : FilterSlot) : Option FilterRecord → List Byte
  | none => bytesOf 1 (1 + bitAt 7 (s.filterRequested i)) ++ bytesOf 31 0
  | some r =>
    bytesOf 1 (2 * codeOf FilterState.members r.state + 8 * codeOf Grade.members r.grade
        + 32 * codeOf BaselineOrigin.members r.origin + bitAt 7 (s.filterRequested i))
      ++ bytesOf 4 r.fittedAt ++ bytesOf 2 r.interval ++ packedField 2 r.pn0
      ++ bytesOf 1 (r.learnCount + 16 * r.causes.toNat) ++ bytesOf 3 r.learnSum
      ++ bytesOf 1 (setOf [r.latestPn.isSome, r.latestRatio.isSome, r.lastValid.isSome])
      ++ packedField 2 r.latestPn ++ packedField 2 r.latestRatio
      ++ bytesOf 4 r.volume ++ bytesOf 2 r.litres ++ bytesOf 4 (r.age s.hours)
      ++ packedField 4 (r.lastValid.map (s.clock.seconds - ·))

/-- R202: the filter report of a slot. -/
def State.filterReport (s : State) (i : FilterSlot) : List Byte := s.filterReportOf i (s.filters.slot i)

/-- READ_FILTER (R173). -/
def execReadFilter (slot : Byte) (s : State) : Answer :=
  hostCommand s fun s =>
    match memberOf FilterSlot.members slot with
    | some i => s.respond .ok (s.filterReport i)
    | none => s.refuse .badValue

/-! ### Frost (R169) -/

/-- R202: the frost report. -/
def Frost.report (g : Frost) : List Byte :=
  bytesOf 1 (codeOf Stage.members g.stage + bitAt 3 g.fallback + bitAt 4 g.unjudged
      + bitAt 5 g.baseline.pn0.isSome)
    ++ enumByte Reason.members g.reason ++ temperatureField g.tf ++ temperatureField g.margin
    ++ bytesOf 1 g.hold ++ bytesOf 1 g.saturation
    ++ bytesOf 1 (g.ice + 4 * setOf [g.windows.preheat, g.windows.reduce, g.windows.gate] + 32 * g.failed)
    ++ bytesOf 2 g.stopTimer ++ bytesOf 2 g.counter ++ bytesOf 2 g.latched.limit
    ++ bytesOf 1 g.reduction ++ bytesOf 1 g.preheat ++ ratioField g.gateResult ++ ratioField g.lastRatio
    ++ bytesOf 1 g.baseline.count ++ packedField 2 g.baseline.pn0

/-- READ_FROST (R169). -/
def execReadFrost (s : State) : Answer := hostCommand s fun s => s.respond .ok s.frost.report

/-! ### Fans (R108, R125) -/

/-- R200: the response of READ_CAL and WRITE_CAL. -/
def State.calReport (s : State) (f : FanId) : List Byte :=
  enumByte fanMembers f
    ++ (s.drive.cals.table f).toList.flatMap fun c => bytesOf 2 c.duty ++ bytesOf 2 c.flow

/-- READ_CAL (R108). -/
def execReadCal (fan : Byte) (s : State) : Answer :=
  hostCommand s fun s =>
    match memberOf fanMembers fan with
    | some f => s.respond .ok (s.calReport f)
    | none => s.refuse .badValue

/-- R122: the DIRECT value, absent on AUTO. -/
def DriveSource.value : DriveSource → Option Nat
  | .auto => none
  | .direct v => some v

/-- R202: the fan report's part for one fan. An estimate that is too large for its field is the free value of `flowField`
(assumption 36). -/
def State.fanBytes (s : State) (f : FanId) : List Byte :=
  let x := s.drive.fan f
  bytesOf 1 (codeOf FanState.members x.state + bitAt 2 x.source.value.isSome + 8 * x.attempts)
    ++ bytesOf 1 (if x.state = .faultRest then x.rest else x.stall)
    ++ quantityField 2 x.source.value ++ bytesOf 2 x.requested ++ bytesOf 2 x.commanded
    ++ bytesOf 2 (s.sensing.tach f).speed ++ flowField (s.estimate f)

/-- R202: the fan report. -/
def State.fanReport (s : State) : List Byte :=
  let h := s.drive.preheater
  s.fanBytes .sup ++ s.fanBytes .ext ++ bytesOf 2 s.drive.trim
    ++ bytesOf 2 (min 65535 (s.drive.elapsed / 1000))
    ++ bytesOf 1 (bitAt 0 s.drive.steady + bitAt 1 h.source.value.isSome)
    ++ quantityField 1 h.source.value ++ bytesOf 1 s.requestedPreheat ++ bytesOf 1 h.effective

/-- READ_FANS (R125). -/
def execReadFans (s : State) : Answer := hostCommand s fun s => s.respond .ok s.fanReport

/-! ### Notices (R189) -/

/-- R200: the READ_NOTICES response. -/
def State.noticeReport (s : State) : List Byte :=
  bytesOf 2 s.notices.flags.toNat ++ bytesOf 2 s.params.mask.toNat
    ++ enumByte ResetCause.members s.notices.cause ++ bytesOf 1 s.notices.defaulted.toNat
    ++ bytesOf 4 s.clock.seconds ++ bytesOf 4 s.hours

/-- READ_NOTICES (R189). -/
def execReadNotices (s : State) : Answer := hostCommand s fun s => s.respond .ok s.noticeReport

end Sys2Proof.Machine
end

