-- ==== Sys2Proof/Machine/Demand.lean ====
section
/-! DEFINITION. The demand table: handles (R24, R25), filing and retirement (R26, R29 to R31, R34), and the
meanings of FILE_DEMAND, AMEND_DEMAND, RETIRE_DEMAND, READ_DEMAND, LIST_DEMANDS and DEMAND_EXPIRY. -/

namespace Sys2Proof.Machine

/-! ### The table's operations -/

/-- R25: the record a handle names. -/
def DemandTable.find (t : DemandTable) (h : Half) : Option DemandRecord :=
  if h.extractLsb' 8 8 = 0 then none else t.live.find? fun r => r.handle = h

/-- R30: the live record of an internal origin and a kind. -/
def DemandTable.byOrigin (t : DemandTable) (o : Origin) (k : Kind) : Option DemandRecord :=
  t.live.find? fun r => r.origin = o && r.kind = k

/-- R30: the live LINK record of a kind and a tag. -/
def DemandTable.byTag (t : DemandTable) (k : Kind) (tag : Byte) : Option DemandRecord :=
  t.live.find? fun r => r.origin = .link && r.kind = k && r.tag = some tag

/-- R23: the number of live records of origin LINK. -/
def DemandTable.linkCount (t : DemandTable) : Nat := t.live.countP fun r => r.origin = .link

/-- R24: the generation an entry takes at its next use. -/
def nextGeneration (g : Nat) : Nat := if g < 255 then g + 1 else 1

/-- R29: records renumbered from `n` up. -/
def renumber : Nat → List DemandRecord → List DemandRecord
  | _, [] => []
  | n, r :: rs => { r with seq := n } :: renumber (n + 1) rs

/-- R29: a counter at its largest value makes the table renumber its records before a new filing. -/
def DemandTable.makeRoom (t : DemandTable) : DemandTable :=
  if t.counter < maxCounter then t else { t with live := renumber 1 t.live, counter := t.live.length }

/-- R27: the time left of a duration that starts now, in seconds. -/
def Duration.start : Duration → Option Nat
  | .minutes n => some (n * 60)
  | .absent | .indefinite => none

/-- What a filing gives a new record (R28). -/
structure Draft where
  origin : Origin
  kind : Kind
  level : Nat
  tag : Option Byte
  duration : Duration
  held : Bool
  deriving DecidableEq, Repr

/-- R24, R26, R29, R36: a new record is put into the entry at the head of the free list. The list is not empty
where a filing is accepted (R31). -/
def DemandTable.add (t : DemandTable) (x : Draft) (now : Nat) : DemandTable :=
  match t.freeList with
  | [] => t
  | e :: rest =>
    let u := t.makeRoom
    let g := nextGeneration t.gens[e]
    { live := u.live ++
        [{ entry := e, gen := g, origin := x.origin, kind := x.kind, level := x.level, tag := x.tag
           duration := x.duration, remaining := x.duration.start, seq := u.counter + 1, filedAt := now
           held := x.held }]
      gens := t.gens.set e g
      freeList := rest
      counter := u.counter + 1 }

/-- R26 and R34: a record is retired; its entry joins the tail of the free list. -/
def DemandTable.remove (t : DemandTable) (r : DemandRecord) : DemandTable :=
  { t with live := t.live.filter fun x => x.entry ≠ r.entry, freeList := t.freeList ++ [r.entry] }

/-- R30: a live record is amended where it stands. -/
def DemandTable.amend (t : DemandTable) (r : DemandRecord) (f : DemandRecord → DemandRecord) : DemandTable :=
  { t with live := t.live.map fun x => if x.entry = r.entry then f x else x }

/-- R32: a record's duration is set and its remaining time starts afresh from it. -/
def DemandRecord.restart (r : DemandRecord) (d : Duration) : DemandRecord :=
  { r with duration := d, remaining := d.start }

/-! ### The table in the part -/

/-- The demand table takes new contents. -/
def State.setDemand (s : State) (t : DemandTable) : State := { s with demand := t }

/-- A new record is filed at the present second, and the resolver recomputes (R50). -/
def State.fileRecord (s : State) (x : Draft) : State :=
  (s.setDemand (s.demand.add x s.clock.seconds)).inputChanged

/-- A record is retired, and the resolver recomputes (R34, R50). -/
def State.retireRecord (s : State) (r : DemandRecord) : State := (s.setDemand (s.demand.remove r)).inputChanged

/-- A record is amended; the resolver recomputes where its level or its state changes (R50). -/
def State.amendRecord (s : State) (r : DemandRecord) (f : DemandRecord → DemandRecord) : State :=
  if (f r).level = r.level ∧ (f r).held = r.held then s.setDemand (s.demand.amend r f)
  else (s.setDemand (s.demand.amend r f)).inputChanged

/-! ### FILE_DEMAND -/

/-- R35 and R38: a level above 100 is taken as 100. -/
def clampLevel (level : Byte) : Nat := min 100 level.toNat

/-- R35 and R38: the duration a request carries, 0 for INDEFINITE, above 1440 taken as 1440. -/
def requestedDuration (minutes : Half) : Duration :=
  if minutes = 0 then .indefinite else .minutes (min 1440 minutes.toNat)

/-- R35 and R38: OK, or CLAMPED where a value was clamped. -/
def clampStatus (clamped : Bool) : Status := if clamped then .clamped else .ok

/-- R200: the FILE_DEMAND response, with the outcome's code. -/
def filedResponse (h : Half) (amended : Bool) : List Byte := bytesOfHalf h ++ bytesOf 1 (bitAt 0 amended)

/-- R24: the handle of the record filed last. -/
def DemandTable.newestHandle (t : DemandTable) : Half := (t.live.getLast?.map DemandRecord.handle).getD 0

/-- R35 steps 3 to 5: a filing of origin LINK. The response to TABLE_FULL is the handle 0 alone
(assumption 12). -/
def State.fileLink (s : State) (k : Kind) (level : Nat) (d : Duration) (tag : Byte) (status : Status) : State :=
  match s.demand.byTag k tag with
  | some r =>
    (s.amendRecord r fun x => { x with level }.restart d).respond status (filedResponse r.handle true)
  | none =>
    if s.demand.linkCount < 16 then
      let t := s.fileRecord ⟨.link, k, level, some tag, d, false⟩
      t.respond status (filedResponse t.demand.newestHandle false)
    else s.respond .tableFull (bytesOfHalf 0)

/-- FILE_DEMAND (R35 to R37). The BAD_VALUE of step 1 answers with length 0 (R184): whether step 4's "A refused
filing returns handle 0" covers it too is not said (DESIGN CHOICE, assumption 51). -/
def execFileDemand (kind level : Byte) (duration : Half) (tag : Byte) (s : State) : Answer :=
  hostCommand s fun s =>
    match memberOf Kind.members kind with
    | none => s.refuse .badValue
    | some k =>
      s.fileLink k (clampLevel level) (requestedDuration duration) tag
        (clampStatus (decide (100 < level.toNat) || decide (1440 < duration.toNat)))

/-! ### AMEND_DEMAND -/

/-- R198: a duration in a response, 0 for INDEFINITE and 0xFFFF when absent. -/
def durationField : Duration → List Byte
  | .absent => bytesOf 2 0xFFFF
  | .indefinite => bytesOf 2 0
  | .minutes n => bytesOf 2 n

/-- R38: the fields of the request that are present replace the record's own. -/
def DemandRecord.amended (r : DemandRecord) (fields level : Byte) (duration : Half) : DemandRecord :=
  let r1 := if fields.getLsbD 0 then { r with level := clampLevel level } else r
  if fields.getLsbD 1 then r1.restart (requestedDuration duration) else r1

/-- R38: a present field was clamped. -/
def amendClamped (fields level : Byte) (duration : Half) : Bool :=
  (fields.getLsbD 0 && decide (100 < level.toNat)) || (fields.getLsbD 1 && decide (1440 < duration.toNat))

/-- R200: the AMEND_DEMAND response. -/
def DemandRecord.amendReport (r : DemandRecord) : List Byte :=
  bytesOf 1 r.level ++ durationField r.duration ++ quantityField 4 r.remaining

/-- AMEND_DEMAND (R38). -/
def execAmendDemand (handle : Half) (fields level : Byte) (duration : Half) (s : State) : Answer :=
  hostCommand s fun s =>
    if 4 ≤ fields.toNat then s.refuse .badValue
    else match s.demand.find handle with
      | none => s.refuse .noSuch
      | some r =>
        if r.origin = .link then
          (s.amendRecord r fun x => x.amended fields level duration).respond
            (clampStatus (amendClamped fields level duration)) (r.amended fields level duration).amendReport
        else s.refuse .notAllowed

/-! ### RETIRE_DEMAND, READ_DEMAND and LIST_DEMANDS -/

/-- R39: the origins whose records the host may retire. -/
def Origin.retirable : Origin → Bool
  | .link | .station _ => true
  | .cooker | .humidity => false

/-- RETIRE_DEMAND (R39). -/
def execRetireDemand (handle : Half) (s : State) : Answer :=
  hostCommand s fun s =>
    match s.demand.find handle with
    | none => s.refuse .noSuch
    | some r => if r.origin.retirable then (s.retireRecord r).respond .ok [] else s.refuse .notAllowed

/-- R202: the demand report. The tag reads 0 where it is absent, as the flags report. -/
def DemandRecord.report (r : DemandRecord) (now : Nat) : List Byte :=
  bytesOfHalf r.handle ++ enumByte Origin.members r.origin ++ enumByte Kind.members r.kind ++ bytesOf 1 r.level
    ++ packedField 1 (r.tag.map BitVec.toNat) ++ bytesOf 1 (bitAt 0 r.held + bitAt 1 r.tag.isSome)
    ++ durationField r.duration ++ quantityField 4 r.remaining ++ bytesOf 4 r.seq ++ bytesOf 4 (now - r.filedAt)

/-- READ_DEMAND (R40). -/
def execReadDemand (handle : Half) (s : State) : Answer :=
  hostCommand s fun s =>
    match s.demand.find handle with
    | none => s.refuse .noSuch
    | some r => s.respond .ok (r.report s.clock.seconds)

/-- R41: the LIST_DEMANDS response from a position. -/
def DemandTable.listing (t : DemandTable) (position : Nat) : List Byte :=
  let page := (t.live.drop position).take 8
  bytesOf 1 t.live.length ++ bytesOf 1 page.length ++ page.flatMap fun r => bytesOfHalf r.handle

/-- LIST_DEMANDS (R41). -/
def execListDemands (position : Byte) (s : State) : Answer :=
  hostCommand s fun s => s.respond .ok (s.demand.listing position.toNat)

/-! ### DEMAND_EXPIRY -/

/-- R33: a record whose remaining time has run out is retired, a LINK record with the DEMAND notice. -/
def State.expireDemand (s : State) (r : DemandRecord) : State :=
  (s.retireRecord r).notifyIf (r.origin = .link) .demand

/-- DEMAND_EXPIRY (R33) of the record with the given handle; a handle that names no record, or one without a
remaining time, has nothing to expire. -/
def execDemandExpiry (handle : Half) (s : State) : Answer :=
  partEvent s fun s =>
    match s.demand.find handle with
    | some r => if r.remaining.isSome then s.expireDemand r else s
    | none => s

end Sys2Proof.Machine
end

