-- ==== Sys2Proof/Machine/Fans.lean ====
section
/-! DEFINITION. The events and commands of the fan drive: stalls, rests and lockouts (R118 to R121), slew steps
(R113), steadiness (R116), the preheater's periods (R123), the source map (R122) and calibration (R107), with the
meanings of TACH_WINDOW_CLOSE, REST_END, CLEAN_RUN_END, SLEW_STEP, STEADINESS_REACHED, PREHEAT_PERIOD_START,
PREHEAT_ON_TIME_END, SET_SOURCE, WRITE_CAL and CLEAR_FAN_FAULT. -/

namespace Sys2Proof.Machine

/-- A change inside the drive that is no input of the resolver: what it makes of the preheater, of steadiness and
of the pressure channel. -/
def State.driveChanged (s : State) : State := s.driveTail.channelTail

/-! ### Supervision -/

/-- R118: the fan is found stalled in the window that has closed. -/
def State.stalledIn (s : State) (f : FanId) : Bool :=
  (s.drive.fan f).state = .running && decide (s.firstDuty f ≤ (s.drive.fan f).commanded)
    && decide ((s.sensing.tach f).speed < 150)

/-- R119 and R120: a stalled fan goes to rest, or is locked after three attempts. -/
def Fan.stalled (x : Fan) : Fan :=
  if x.attempts < 3 then
    { x with state := .faultRest, commanded := 0, step := none, stall := 0, rest := 60, cleanRun := 0 }
  else { x with state := .locked, commanded := 0, step := none, stall := 0, cleanRun := 0 }

/-- R118: the stall count of a fan takes a new value, which at 15 is a stall. -/
def State.countStall (s : State) (f : FanId) (n : Nat) : State :=
  if n < 15 then s.moveFan f { s.drive.fan f with stall := n }
  else ((s.moveFan f (s.drive.fan f).stalled).notify .fan).inputChanged

/-- R118: the judgement of the fan whose window has closed. -/
def State.judgeStall (s : State) (f : FanId) : State :=
  s.countStall f (if s.stalledIn f then (s.drive.fan f).stall + 1 else 0)

/-- TACH_WINDOW_CLOSE (R16, R118). -/
def execTachWindowClose (f : FanId) (samples : List Bool) (s : State) : Answer :=
  partEvent s fun s =>
    { s with sensing := s.sensing.setTach f ((s.sensing.tach f).close samples) }.judgeStall f

/-- REST_END (R119). -/
def execRestEnd (f : FanId) (s : State) : Answer :=
  partEvent s fun s =>
    let x := s.drive.fan f
    if x.state = .faultRest then
      (s.moveFan f { x with state := .idle, attempts := x.attempts + 1, rest := 0 }).inputChanged
    else s

/-- CLEAN_RUN_END (R120): the clean-run timer reaches 600, which ends a fault episode. -/
def execCleanRunEnd (f : FanId) (s : State) : Answer :=
  partEvent s fun s =>
    let x := s.drive.fan f
    if x.state = .running then s.moveFan f { x with cleanRun := 600, attempts := 0 } else s

/-- R121: a fan is cleared. -/
def Fan.cleared (x : Fan) : Fan := { x with state := .idle, attempts := 0, stall := 0, cleanRun := 0 }

/-- CLEAR_FAN_FAULT (R121). -/
def execClearFanFault (fan : Byte) (s : State) : Answer :=
  hostCommand s fun s =>
    match memberOf fanMembers fan with
    | none => s.refuse .badValue
    | some f =>
      if (s.drive.fan f).state = .locked then
        ((s.moveFan f (s.drive.fan f).cleared).inputChanged).respond .ok []
      else s.respond .ok []

/-! ### The ramp and steadiness -/

/-- R113: the step timer of a fan runs. -/
def Fan.ramping (x : Fan) : Bool := x.state = .running && x.step.isSome && x.commanded != x.requested

/-- SLEW_STEP (R113). -/
def execSlewStep (f : FanId) (s : State) : Answer :=
  partEvent s fun s =>
    let x := s.drive.fan f
    if x.ramping then (s.moveFan f (x.slew (s.firstDuty f) s.params.slewInterval)).driveChanged else s

/-- STEADINESS_REACHED (R116): the steadiness timer has reached STEADY_TIME. -/
def execSteadinessReached (s : State) : Answer :=
  partEvent s fun s =>
    if s.drive.matched then
      { s with drive :=
        { s.drive with elapsed := max s.drive.elapsed (s.params.nat .steadyTime * 1000) } }.refreshSteady.channelTail
    else s

/-! ### The preheater -/

/-- The preheater takes new items. -/
def State.setPreheater (s : State) (h : Preheater) : State := { s with drive := { s.drive with preheater := h } }

/-- PREHEAT_PERIOD_START (R123). -/
def execPreheatPeriodStart (s : State) : Answer :=
  partEvent s fun s =>
    let h := s.drive.preheater
    s.setPreheater { h with periodStart := s.clock.ms, pin := decide (0 < h.effective) }

/-- PREHEAT_ON_TIME_END (R123). At an effective duty of 100 the element is on throughout. -/
def execPreheatOnTimeEnd (s : State) : Answer :=
  partEvent s fun s =>
    let h := s.drive.preheater
    s.setPreheater { h with pin := h.pin && decide (100 ≤ h.effective) }

/-! ### The source map -/

/-- R122: a fan's source takes a new value; its request is formed again. -/
def State.setFanSource (s : State) (f : FanId) (x : DriveSource) : State :=
  ((s.moveFan f { s.drive.fan f with source := x }).formRequest f).driveChanged

/-- R122: the preheater's source takes a new value. -/
def State.setPreSource (s : State) (x : DriveSource) : State :=
  (s.setPreheater { s.drive.preheater with source := x }).driveChanged

/-- R122: an output's source takes a new value. -/
def State.mapSource (s : State) (o : Output) (x : DriveSource) : State :=
  match o with
  | .fan f => s.setFanSource f x
  | .pre => s.setPreSource x

/-- R122: the largest DIRECT value of an output. -/
def Output.top : Output → Nat
  | .fan _ => 1000
  | .pre => 100

/-- R122: the source a SET_SOURCE asks for, its value taken at the limit where it lies above it. The value of PRE is the whole
two-byte field, so that 256 and above are taken as 100 too (DESIGN CHOICE, assumption 47). -/
def Output.sourceOf (o : Output) (direct : Bool) (value : Half) : DriveSource :=
  if direct then .direct (min o.top value.toNat) else .auto

/-- R122: a DIRECT value is raised to the fan's first duty at this execution. -/
def State.raises (s : State) (o : Output) (value : Half) : Bool :=
  match o with
  | .fan f => !s.forcedToZero f && decide (0 < value.toNat) && decide (value.toNat < s.firstDuty f)
  | .pre => false

/-- R122: the command answers CLAMPED. -/
def State.sourceClamped (s : State) (o : Output) (direct : Bool) (value : Half) : Bool :=
  direct && (decide (o.top < value.toNat) || s.raises o value)

/-- R200: the SET_SOURCE response. -/
def State.sourceReport (s : State) (o : Output) : List Byte :=
  let x :=
    match o with
    | .fan f => (s.drive.fan f).source
    | .pre => s.drive.preheater.source
  let requested :=
    match o with
    | .fan f => some (s.drive.fan f).requested
    | .pre => none
  enumByte Output.members o ++ enumByte sourceMembers x.value.isSome ++ quantityField 2 x.value
    ++ quantityField 2 requested

/-- SET_SOURCE (R122). -/
def execSetSource (output source : Byte) (value : Half) (s : State) : Answer :=
  hostCommand s fun s =>
    match memberOf Output.members output, memberOf sourceMembers source with
    | some o, some direct =>
      if s.resolver.mode = .commission then
        let t := s.mapSource o (o.sourceOf direct value)
        t.respond (clampStatus (s.sourceClamped o direct value)) (t.sourceReport o)
      else s.refuse .wrongMode
    | _, _ => s.refuse .badValue

/-! ### Calibration -/

/-- R107 step 3: a point lies below another in duty and in flow. -/
def CalPoint.below (a b : CalPoint) : Bool := decide (a.duty < b.duty) && decide (a.flow < b.flow)

/-- R107 step 3: a new point `i` lies between its neighbours. -/
def CalTable.fits (t : CalTable) (i : Fin 6) (c : CalPoint) : Bool :=
  (List.finRange 6).all fun j =>
    if j.val + 1 = i.val then CalPoint.below t[j] c
    else if i.val + 1 = j.val then CalPoint.below c t[j]
    else true

/-- R107 step 2: a duty of 1 to 1000 and a flow above 0. -/
def CalPoint.allowed (c : CalPoint) : Bool :=
  decide (0 < c.duty) && decide (c.duty ≤ 1000) && decide (0 < c.flow)

/-- R107: an accepted point replaces the old one; the fan's request is formed again. -/
def State.writePoint (s : State) (f : FanId) (i : Fin 6) (c : CalPoint) : State :=
  let t : CalTable := (s.drive.cals.table f).set i c
  ((({ s with drive := { s.drive with cals := s.drive.cals.setTable f t } }.formRequest f).driveChanged).changed
    .calibrations)

/-- R107: the point number, 0 to 5. -/
def pointOf (point : Byte) : Option (Fin 6) := if h : point.toNat < 6 then some ⟨point.toNat, h⟩ else none

/-- WRITE_CAL (R107). -/
def execWriteCal (fan point : Byte) (duty flow : Half) (s : State) : Answer :=
  hostCommand s fun s =>
    match memberOf fanMembers fan, pointOf point with
    | some f, some i =>
      let c : CalPoint := ⟨duty.toNat, flow.toNat⟩
      if c.allowed && CalTable.fits (s.drive.cals.table f) i c then
        let t := s.writePoint f i c
        t.respond .ok (t.calReport f)
      else s.refuse .badValue
    | _, _ => s.refuse .badValue

end Sys2Proof.Machine
end

