-- ==== Sys2Proof/Machine/Normalise.lean ====
section
/-! DEFINITION. The arithmetic of a completed measurement: the raw result (R127, R130), the orifice flow (R143), the
flow for normalisation (R144) and the outcome with its normalised pressure (R145). -/

namespace Sys2Proof.Machine

/-- R130: the measurement after one more conversion result, which R127 limits. -/
def Flight.add (f : Flight) (conversion : Int) : Flight :=
  if 5000 ≤ conversion then { f with count := f.count + 1, overRange := true }
  else { f with count := f.count + 1, sum := f.sum + conversion.toNat }

/-- R130: the value of the raw result. -/
def Flight.value (f : Flight) : Nat := if f.overRange then 5000 else roundDiv f.sum 8

/-- R143: the orifice flow of a FLOW result. -/
def orificeFlow (p : Params) (value : Nat) : Nat := roundDiv (p.nat .flowK * isqrt (1000 * value)) 1000

/-- R142: the orifice flow of an entry. -/
def Result.orifice (r : Result) : Option Nat :=
  match r.body with
  | .orifice q => some q
  | .element _ _ _ _ => none

/-- R144: the Q of a fresh FLOW entry, by the four conditions of the rule. -/
def State.freshFlow (s : State) : Option Nat :=
  match s.pressure.flowEntry with
  | some e =>
    if !e.result.overRange && s.pressure.fresh && decide (s.clock.seconds - e.second ≤ 120) then e.result.orifice
    else none
  | none => none

/-- R144: the supply flow, from a fresh FLOW entry or else the estimate. -/
def State.supplyFlow (s : State) : Nat := s.freshFlow.getD s.supplyEstimate

/-- R144: the flow used for a measurement, and whether its origin is ESTIMATE. -/
def State.flowUsed (s : State) : Tap → Nat × Bool
  | .supFilter => (s.supplyFlow, s.freshFlow.isNone)
  | .flow | .extFilter | .exch => (s.extractEstimate, true)

/-- R145: the outcome of a measurement of a filter or the exchanger, and its normalised pressure. -/
def judgeElement (p : Params) (value : Nat) (overRange : Bool) (flow : Nat) : MeasureOutcome × Option Nat :=
  if overRange then (.overRange, none)
  else if flow < roundDiv (p.nat .nominalFlow * 30) 100 then (.lowFlow, none)
  else
    (.valid,
      some (min 65535 (roundDiv (value * (p.nat .nominalFlow * p.nat .nominalFlow)) (flow * flow))))

/-- R131 step 2: the derived values of a measurement. -/
def State.deriveBody (s : State) (f : Flight) : ResultBody :=
  match f.tap with
  | .flow => .orifice (orificeFlow s.params f.value)
  | .supFilter | .extFilter | .exch =>
    let used := s.flowUsed f.tap
    let judged := judgeElement s.params f.value f.overRange used.1
    .element judged.1 used.1 used.2 judged.2

/-- R131 steps 1 and 2: the result of a measurement. -/
def State.deriveResult (s : State) (f : Flight) : Result := ⟨f.value, f.overRange, s.deriveBody f⟩

end Sys2Proof.Machine
end

