-- ==== Sys2Proof/Machine/Filter.lean ====
section
/-! DEFINITION. The filter table: results and learning (R174, R175), advances (R176, R178), fitting and retiring
(R171, R172), volume (R179) and the hourly evaluation (R177), with the meanings of FIT_FILTER, RETIRE_FILTER,
VOLUME_ADDITION and OPERATING_HOURS_ADVANCE. -/

namespace Sys2Proof.Machine

/-! ### Advances -/

/-- R176: the causes whose criteria for OVERDUE hold. -/
def FilterRecord.overdueCauses (p : Params) (hours : Nat) (atOver : Bool) (r : FilterRecord) : BitVec 4 :=
  causeSet (r.latestRatio.any fun x => decide (p.nat .filterOverdueRatio ≤ x))
    (atOver && (r.state = .service || r.state = .due))
    (decide (r.interval + p.nat .overdueGrace ≤ r.age hours)) false

/-- R176: the causes whose criteria for DUE hold. -/
def FilterRecord.dueCauses (p : Params) (hours : Nat) (r : FilterRecord) : BitVec 4 :=
  causeSet (r.state = .service && r.latestRatio.any fun x => decide (p.nat .filterDueRatio ≤ x)) false
    (decide (r.interval ≤ r.age hours))
    (decide (0 < p.nat .volumeLimit) && decide (p.nat .volumeLimit * 1000 ≤ r.volume))

/-- R176: an evaluation of a record, made at an OVER result where `atOver` says so. -/
def FilterRecord.evaluate (p : Params) (hours : Nat) (atOver : Bool) (r : FilterRecord) : FilterRecord :=
  if r.state ≠ .overdue ∧ r.overdueCauses p hours atOver ≠ 0 then
    { r with state := .overdue, causes := r.overdueCauses p hours atOver }
  else if (r.state = .learning ∨ r.state = .service) ∧ r.dueCauses p hours ≠ 0 then
    { r with state := .due, causes := r.dueCauses p hours }
  else r

/-! ### Results -/

/-- R175: a VALID result is learnt; the eighth makes the baseline. -/
def FilterRecord.learn (pn : Nat) (r : FilterRecord) : FilterRecord :=
  let r1 := { r with learnCount := r.learnCount + 1, learnSum := r.learnSum + pn }
  if r1.learnCount < 8 then r1
  else
    { r1 with
      pn0 := some (baselineOf r1.learnSum), origin := some .learnt
      latestRatio := some (ratioOf pn (baselineOf r1.learnSum))
      state := if r.state = .learning then .service else r.state }

/-- R174: the record takes a VALID result. -/
def FilterRecord.takeValid (pn now : Nat) (r : FilterRecord) : FilterRecord :=
  let r1 := { r with latestPn := some pn, lastValid := some now }
  match r.pn0 with
  | some pn0 => { r1 with latestRatio := some (ratioOf pn pn0) }
  | none => r1.learn pn

/-- R174: the record takes the result of a FILTER measurement and is evaluated. -/
def FilterRecord.takeResult (p : Params) (hours now : Nat) (o : MeasureOutcome) (pn : Nat) (r : FilterRecord) :
    FilterRecord :=
  match o with
  | .valid => (r.takeValid pn now).evaluate p hours false
  | .overRange => r.evaluate p hours true
  | .lowFlow => r.evaluate p hours false

/-! ### The table in the part -/

/-- R181: two records differ in what the filter block holds of them. -/
def FilterRecord.storedDiffers (a b : FilterRecord) : Bool :=
  { a with lastValid := none } != { b with lastValid := none }

/-- R178: a record takes new fields; an advance sets FILTER, and one into OVERDUE is handed to the resolver. -/
def State.moveFilter (s : State) (i : FilterSlot) (old new : FilterRecord) : State :=
  let s1 := (({ s with filters := s.filters.setSlot i (some new) }.notifyIf (new.state != old.state) .filter).changedIf
    (old.storedDiffers new) .filterRecords)
  if new.state = .overdue ∧ old.state ≠ .overdue then s1.recompute else s1

/-- R174: the hand-over of a FILTER measurement to the record in its slot. -/
def State.handFilter (s : State) (i : FilterSlot) (o : MeasureOutcome) (pn : Nat) : State :=
  match s.filters.slot i with
  | some r => s.moveFilter i r (r.takeResult s.params s.hours s.clock.seconds o pn)
  | none => s

/-- A slot takes a record, or is emptied, with the FILTER notice, the filter block and the resolver following
(R171, R172). -/
def State.refit (s : State) (i : FilterSlot) (r : Option FilterRecord) : State :=
  ((({ s with filters := s.filters.setSlot i r }.notify .filter).changed .filterRecords).inputChanged)

/-! ### FIT_FILTER and RETIRE_FILTER -/

/-- R171: the interval a fitting takes, 0 asking for FILTER_INTERVAL. -/
def fittedInterval (p : Params) (interval : Half) : Nat :=
  if interval = 0 then p.nat .filterInterval else clampNat 720 8760 interval.toNat

/-- R171: the baseline a fitting takes, 0 asking for none. -/
def fittedBaseline (baseline : Half) : Option Nat :=
  if baseline = 0 then none else some (max 10 baseline.toNat)

/-- R171: a value of the fitting was clamped. -/
def fitClamped (interval baseline : Half) : Bool :=
  (interval != 0 && clampNat 720 8760 interval.toNat != interval.toNat)
    || (baseline != 0 && decide (baseline.toNat < 10))

/-- R171: the record a fitting puts into its slot. -/
def State.fittedRecord (s : State) (g : Grade) (interval baseline : Half) : FilterRecord :=
  let pn0 := fittedBaseline baseline
  { grade := g, fittedAt := s.hours, interval := fittedInterval s.params interval
    pn0, origin := if pn0.isSome then some .given else none
    learnCount := 0, learnSum := 0, latestPn := none, latestRatio := none, volume := 0, litres := 0
    state := if pn0.isSome then .service else .learning
    causes := 0, lastValid := none }

/-- FIT_FILTER (R171). -/
def execFitFilter (slot grade : Byte) (interval baseline : Half) (s : State) : Answer :=
  hostCommand s fun s =>
    match memberOf FilterSlot.members slot, memberOf Grade.members grade with
    | some i, some g =>
      if (s.filters.slot i).isSome then s.refuse .slotOccupied
      else
        let t := s.refit i (some (s.fittedRecord g interval baseline))
        t.respond (clampStatus (fitClamped interval baseline)) (t.filterReport i)
    | _, _ => s.refuse .badValue

/-- R135 and R137: a FILTER request naming the slot is withdrawn and the FILTER timer restarts. -/
def State.withdrawFilter (s : State) (i : FilterSlot) : State :=
  if s.filterRequested i then
    { s with pressure := { s.pressure.withdraw .filter with filterTimer := some s.params.filterMs } }
  else s

/-- RETIRE_FILTER (R172). -/
def execRetireFilter (slot : Byte) (s : State) : Answer :=
  hostCommand s fun s =>
    match memberOf FilterSlot.members slot with
    | none => s.refuse .badValue
    | some i =>
      if (s.filters.slot i).isNone then s.refuse .slotEmpty
      else ((s.withdrawFilter i).refit i none).respond .ok (s.filterReport i)

/-! ### VOLUME_ADDITION and OPERATING_HOURS_ADVANCE -/

/-- R179: a minute's air at a flow joins the volume. -/
def FilterRecord.addMinute (flow : Nat) (r : FilterRecord) : FilterRecord :=
  let litres := r.litres + flow * 6
  { r with volume := min maxCounter (r.volume + litres / 1000), litres := litres % 1000 }

/-- R179: both fans are stopped. -/
def Drive.stopped (d : Drive) : Bool := d.sup.commanded = 0 && d.ext.commanded = 0

/-- R179: the flow counted for SUPPLY, the supply flow of R144. With both fans stopped nothing is counted, though a FLOW entry may
then be fresh by R144 (DEDUCED, assumption 45). -/
def State.countedFlow (s : State) : Nat := if s.drive.stopped then 0 else s.supplyFlow

/-- VOLUME_ADDITION (R179). -/
def execVolumeAddition (s : State) : Answer :=
  partEvent s fun s =>
    { s with filters :=
      { supply := s.filters.supply.map (·.addMinute s.countedFlow)
        extract := s.filters.extract.map (·.addMinute s.extractEstimate) } }

/-- R177: the hourly evaluation of both slots. -/
def Filters.evaluate (p : Params) (hours : Nat) (f : Filters) : Filters :=
  ⟨f.supply.map (·.evaluate p hours false), f.extract.map (·.evaluate p hours false)⟩

/-- R178: a record has advanced between two tables. -/
def Filters.advanced (old new : Filters) : Bool :=
  old.supply.map (·.state) != new.supply.map (·.state) || old.extract.map (·.state) != new.extract.map (·.state)

/-- R178: a record has advanced into OVERDUE between two tables. -/
def Filters.cappedMore (old new : Filters) : Bool :=
  (new.supply.any (·.state = .overdue) && old.supply.all (·.state ≠ .overdue))
    || (new.extract.any (·.state = .overdue) && old.extract.all (·.state ≠ .overdue))

/-- R177, R178 and R181: the filter table takes the records of an evaluation. An advance sets FILTER, and one into OVERDUE
recomputes. -/
def State.takeFilters (s : State) (f : Filters) : State :=
  let t := ({ s with filters := f }.notifyIf (s.filters.advanced f) .filter)
  if s.filters.cappedMore f then t.inputChanged else t

/-- R192, R177 and R181: the counter has advanced. Both blocks become pending at this event, the hours block ahead of the filter
block (DESIGN CHOICE, assumption 48). -/
def State.hourPassed (s : State) : State :=
  (({ s with hours := s.hours + 1 }.changed .hours).changed .filterRecords).takeFilters
    (s.filters.evaluate s.params (s.hours + 1))

/-- OPERATING_HOURS_ADVANCE (R192). A counter at its largest value does not advance. -/
def execOperatingHoursAdvance (s : State) : Answer :=
  partEvent s fun s => if s.hours < maxCounter then s.hourPassed else s

end Sys2Proof.Machine
end

