-- ==== Sys2Proof/Machine/Measure.lean ====
section
/-! DEFINITION. The course of a measurement and its requests: MEASURE and CANCEL_MEASURE (R140, R141), the settle
(R129), the readings and the completion (R130, R131, R147), the trim (R111) and the request timers (R136 to R138),
with the meanings of SETTLE_END, READING, TRIM_TIMER_EXPIRY, FILTER_TIMER_EXPIRY and FROST_TIMER_EXPIRY. -/

namespace Sys2Proof.Machine

/-- The pressure channel takes new items. -/
def State.setPressure (s : State) (p : Pressure) : State := { s with pressure := p }

/-! ### The host's measurements -/

/-- R140: the LINK record has a request under way. -/
def LinkState.busy : LinkState → Bool
  | .waiting | .inProgress => true
  | .none | .done | .aborted => false

/-- R140: an accepted MEASURE files the LINK request. -/
def State.fileLinkMeasure (s : State) (t : Tap) : State :=
  (s.setPressure { s.pressure.file .link t none with record := ⟨.waiting, some t, none, none⟩ }).grant

/-- MEASURE (R140). -/
def execMeasure (tap : Byte) (s : State) : Answer :=
  hostCommand s fun s =>
    match memberOf Tap.members tap with
    | none => s.refuse .badValue
    | some t =>
      if s.resolver.mode.stopped then s.refuse .wrongMode
      else if s.pressure.record.state.busy then s.refuse .busy
      else
        let u := s.fileLinkMeasure t
        u.respond .ok (enumByte LinkState.members u.pressure.record.state)

/-- CANCEL_MEASURE (R141). -/
def execCancelMeasure (s : State) : Answer :=
  hostCommand s fun s =>
    if s.pressure.record.state.busy then ((s.abortLink .cancelled).grant).respond .ok []
    else s.respond .ok []

/-! ### The settle and the readings -/

/-- SETTLE_END (R129). -/
def execSettleEnd (s : State) : Answer :=
  partEvent s fun s =>
    match s.pressure.phase with
    | .select f => s.setPressure { s.pressure with phase := .sample f }
    | .free | .sample _ => s

/-- R111: the trim after a FLOW result that the conditions admit. -/
def nextTrim (t s1 q : Nat) : Nat :=
  let off := if s1 < q then q - s1 else s1 - q
  if roundDiv (s1 * 2) 100 < off then clampNat 750 1250 (roundDiv (t * (s1 + q)) (2 * q)) else t

/-- R111: the conditions under which a FLOW result moves the trim. -/
def State.trims (s : State) (q : Nat) (overRange : Bool) : Bool :=
  s.drive.steady && s.drive.sup.state = .running && s.drive.sup.source = .auto
    && decide (0 < s.resolver.view.s1) && !overRange && decide (0 < q)

/-- R111: the trim takes a value; a change forms the supply request again. -/
def State.setTrim (s : State) (t : Nat) : State :=
  if t = s.drive.trim then s
  else ({ s with drive := { s.drive with trim := t } }.formRequest .sup).driveTail

/-- R111 and R144: the hand-over of a FLOW result to the drive, and the fresh flag set after it. -/
def State.handFlow (s : State) (q : Nat) (overRange : Bool) : State :=
  let t := if s.trims q overRange then s.setTrim (nextTrim s.drive.trim s.resolver.view.s1 q) else s
  t.setPressure { t.pressure with fresh := t.drive.steady }

/-- R147: the LINK record takes the result of its measurement. -/
def State.handLink (s : State) (r : Result) : State :=
  (s.setPressure { s.pressure with record := { s.pressure.record with state := .done, result := some r } }).notify
    .measure

/-- R147: the result goes to the consumer of its tap. -/
def State.handConsumer (s : State) (f : Flight) (r : Result) : State :=
  match r.body, f.requester, f.slot with
  | .orifice q, _, _ => s.handFlow q r.overRange
  | .element o _ _ pn, .frost, _ => s.handExchanger o (pn.getD 0)
  | .element o _ _ pn, .filter, some i => s.handFilter i o (pn.getD 0)
  | .element _ _ _ _, _, _ => s

/-- R131 step 4 and R147: the result is handed on. -/
def State.handOn (s : State) (f : Flight) (r : Result) : State :=
  if f.requester = .link then (s.handConsumer f r).handLink r else s.handConsumer f r

/-- R131 step 5: the requester's periodic timer restarts. -/
def State.restartTimer (s : State) (f : Flight) : State :=
  match f.requester with
  | .trim => s.setPressure { s.pressure with trimTimer := some s.params.trimPeriod }
  | .filter => s.setPressure { s.pressure with filterTimer := some s.params.filterMs, lastSlot := f.slot }
  | .frost => s.restartFrostTimer
  | .link => s

/-- R131: the completion of a measurement. -/
def State.complete (s : State) (f : Flight) : State :=
  let r := s.deriveResult f
  let written := s.setPressure (s.pressure.setEntry f.tap ⟨r, f.requester, s.clock.seconds⟩)
  let handed := written.handOn f r
  let emptied := (handed.setPressure (handed.pressure.setRequest f.requester none)).restartTimer f
  (emptied.setPressure { emptied.pressure with phase := .free }).channelTail

/-- R130: the measurement in flight takes a conversion result. -/
def State.takeReading (s : State) (f : Flight) : State :=
  if f.count < 8 then s.setPressure { s.pressure with phase := .sample f } else s.complete f

/-- READING (R127, R130). The channel makes no conversion outside SAMPLE. -/
def execReading (conversion : Int) (s : State) : Answer :=
  partEvent s fun s =>
    match s.pressure.phase with
    | .sample f => s.takeReading (f.add conversion)
    | .free | .select _ => s

/-! ### Timers -/

/-- TRIM_TIMER_EXPIRY (R136). A stopped timer does not run out. -/
def execTrimTimerExpiry (s : State) : Answer :=
  partEvent s fun s =>
    if s.pressure.trimTimer.isSome then
      (s.setPressure { s.pressure.file .trim .flow none with trimTimer := none }).channelTail
    else s

/-- R137: the slot that the FILTER requester chooses. -/
def chooseSlot (f : Filters) (last : Option FilterSlot) : Option FilterSlot :=
  match f.supply, f.extract with
  | some _, some _ => if last = some .supply then some .extract else some .supply
  | some _, none => some .supply
  | none, some _ => some .extract
  | none, none => none

/-- R137: the FILTER timer runs out with the FILTER slot empty. -/
def State.fileFilter (s : State) : State :=
  match chooseSlot s.filters s.pressure.lastSlot with
  | some i =>
    (s.setPressure { s.pressure.file .filter i.tap (some i) with filterTimer := none }).channelTail
  | none => s.setPressure { s.pressure with filterTimer := some s.params.filterMs }

/-- FILTER_TIMER_EXPIRY (R137). While a FILTER request is outstanding the timer is stopped. -/
def execFilterTimerExpiry (s : State) : Answer :=
  partEvent s fun s =>
    if s.pressure.filterTimer.isSome && s.pressure.filter.isNone then s.fileFilter else s

/-- FROST_TIMER_EXPIRY (R138). -/
def execFrostTimerExpiry (s : State) : Answer :=
  partEvent s fun s =>
    if s.pressure.frostTimer.isSome then
      (s.setPressure { s.pressure.file .frost .exch none with frostTimer := none }).channelTail
    else s

end Sys2Proof.Machine
end

