-- ==== Sys2Proof/Machine/Modes.lean ====
section
/-! DEFINITION. Changes of the unit mode (R100 to R103) with what they do in the other blocks (R135, R164), and the
meanings of SET_MODE and STARTUP_END. -/

namespace Sys2Proof.Machine

/-- R164: the guard at the entry into STARTUP or STANDBY. -/
def Frost.standDown (p : Params) (oa : Option Int) (g : Frost) : Frost :=
  if g.stage = .clear then
    { g.clearCounts.stopCycle with fallback := false, failed := 0, reduction := 0, preheat := 0 }
  else { g with fallback := false }.enter p oa .clear .mode

/-- R164 and R138: the guard stands down; a change of stage sets FROST and reaches the FROST timer. -/
def State.standDownFrost (s : State) : State :=
  let t := { s with frost := s.frost.standDown s.params s.frostOa }
  if s.frost.stage = .clear then t else (t.notify .frost).restartFrostTimer

/-- R135: the entry into STANDBY withdraws the LINK request. -/
def State.standDownLink (s : State) : State :=
  if s.pressure.link.isSome then s.abortLink .standby else s

/-- R103: every output returns to source AUTO. -/
def Drive.allAuto (d : Drive) : Drive :=
  { d with
    sup := { d.sup with source := .auto }, ext := { d.ext with source := .auto }
    preheater := { d.preheater with source := .auto } }

/-- R103: what leaving COMMISSION does to the source map. -/
def State.leaveCommission (s : State) : State :=
  if s.resolver.mode = .commission then { s with drive := s.drive.allAuto } else s

/-- R102: what entering STANDBY does before the recompute. -/
def State.enterStandby (s : State) (m : Mode) : State :=
  if m = .standby then s.standDownFrost.standDownLink else s

/-- R100 and R101: the mode and the pending mode become `m`, and the resolver recomputes. -/
def State.enterMode (s : State) (m : Mode) : State :=
  ({ s.leaveCommission with resolver := { s.resolver with mode := m, pending := m } }.enterStandby m).inputChanged

/-- R101: the mode that SET_MODE names. -/
def requestedMode (mode : Byte) : Option Mode :=
  match memberOf Mode.members mode with
  | some .startup => none
  | m => m

/-- R101: in STARTUP the pending mode is replaced; elsewhere another mode is entered. -/
def State.takeMode (s : State) (m : Mode) : State :=
  if s.resolver.mode = .startup then { s with resolver := { s.resolver with pending := m } }
  else if s.resolver.mode = m then s
  else s.enterMode m

/-- R101: RUN and STANDBY become the stored mode. -/
def State.storeMode (s : State) (m : Mode) : State :=
  if (m = .run ∨ m = .standby) ∧ s.resolver.stored ≠ m then
    { s with resolver := { s.resolver with stored := m } }.changed .storedMode
  else s

/-- R200: the SET_MODE response. -/
def Resolver.modeReport (r : Resolver) : List Byte :=
  enumByte Mode.members r.mode ++ enumByte Mode.members r.pending ++ enumByte Mode.members r.stored

/-- SET_MODE (R101). -/
def execSetMode (mode : Byte) (s : State) : Answer :=
  hostCommand s fun s =>
    match requestedMode mode with
    | none => s.refuse .badValue
    | some m =>
      let t := (s.takeMode m).storeMode m
      t.respond .ok t.resolver.modeReport

/-- STARTUP_END (R100). -/
def execStartupEnd (s : State) : Answer :=
  partEvent s fun s => if s.resolver.mode = .startup then s.enterMode s.resolver.pending else s

end Sys2Proof.Machine
end

