-- ==== Sys2Proof/Decode.lean ====
section
/-! DEFINITION. What bytes spell: the table's words, the host's write transactions (R184, R200) and the frames of
the station bus (R203), with the encoders beside them. -/

namespace Sys2Proof

open Machine (halfOf wordOf bytesOfHalf bytesOfWord)

/-- The command that a word spells by the bits of spec/opcode_table.json. The table gives no row any bits: the
commands arrive as the byte strings of `decodeWrite`, the events from the part's pins and timers. -/
def decodeTableWord (_nbits _w : Nat) : Option Instr := none

/-! ### Host writes -/

/-- R200: the field length of the command with the given code, for the codes that name a command. -/
def fieldLength (code : Byte) : Option Nat :=
  match code.toNat with
  | 0x01 => some 5 | 0x02 => some 6 | 0x03 => some 2 | 0x04 => some 2 | 0x05 => some 1
  | 0x08 => some 0 | 0x09 => some 0 | 0x0A => some 1 | 0x0B => some 0
  | 0x10 => some 1 | 0x11 => some 0 | 0x12 => some 0 | 0x13 => some 1
  | 0x18 => some 6 | 0x19 => some 1 | 0x1A => some 1 | 0x1C => some 0 | 0x1D => some 0
  | 0x20 => some 5 | 0x21 => some 1 | 0x22 => some 1 | 0x23 => some 4 | 0x24 => some 6 | 0x25 => some 1
  | 0x26 => some 0 | 0x28 => some 0 | 0x29 => some 2 | 0x2A => some 1
  | 0x30 => some 0 | 0x31 => some 0
  | _ => none

/-- R200: the command with the given code and field bytes, where their number is the code's. -/
def decodeFields (code : Byte) (fields : List Byte) : Option Instr :=
  match code.toNat, fields with
  | 0x01, [k, l, d0, d1, t] => some (.fileDemand k l (halfOf d0 d1) t)
  | 0x02, [h0, h1, f, l, d0, d1] => some (.amendDemand (halfOf h0 h1) f l (halfOf d0 d1))
  | 0x03, [h0, h1] => some (.retireDemand (halfOf h0 h1))
  | 0x04, [h0, h1] => some (.readDemand (halfOf h0 h1))
  | 0x05, [p] => some (.listDemands p)
  | 0x08, [] => some .readResolution
  | 0x09, [] => some .readSensors
  | 0x0A, [a] => some (.readStation a)
  | 0x0B, [] => some .readHumidity
  | 0x10, [t] => some (.measure t)
  | 0x11, [] => some .readMeasure
  | 0x12, [] => some .cancelMeasure
  | 0x13, [t] => some (.readTap t)
  | 0x18, [s, g, i0, i1, b0, b1] => some (.fitFilter s g (halfOf i0 i1) (halfOf b0 b1))
  | 0x19, [s] => some (.retireFilter s)
  | 0x1A, [s] => some (.readFilter s)
  | 0x1C, [] => some .readFrost
  | 0x1D, [] => some .relearnExchanger
  | 0x20, [i, v0, v1, v2, v3] => some (.setParam i (wordOf v0 v1 v2 v3))
  | 0x21, [i] => some (.getParam i)
  | 0x22, [m] => some (.setMode m)
  | 0x23, [o, s, v0, v1] => some (.setSource o s (halfOf v0 v1))
  | 0x24, [f, p, d0, d1, q0, q1] => some (.writeCal f p (halfOf d0 d1) (halfOf q0 q1))
  | 0x25, [f] => some (.readCal f)
  | 0x26, [] => some .readFans
  | 0x28, [] => some .readNotices
  | 0x29, [f0, f1] => some (.clearNotices (halfOf f0 f1))
  | 0x2A, [f] => some (.clearFanFault f)
  | 0x30, [] => some .reset
  | 0x31, [] => some .factoryClear
  | _, _ => none

/-- R184: how a write transaction is taken. -/
inductive WriteVerdict where
  /-- No bytes after the address: not a command. -/
  | empty
  | badLength
  | badCommand
  | command (c : Instr)
  deriving DecidableEq, Repr

/-- R184: the checks of a write, in their order, on its bytes after the address byte. A write of more than 34
bytes has a length byte above 32 or more field bytes than its length byte, so step 2 refuses it. -/
def decodeWrite : List Byte → WriteVerdict
  | [] => .empty
  | [_] => .badLength
  | code :: n :: fields =>
    if 32 < n.toNat ∨ fields.length ≠ n.toNat then .badLength
    else match fieldLength code with
      | none => .badCommand
      | some len =>
        if n.toNat ≠ len then .badLength
        else match decodeFields code fields with
          | some c => .command c
          | none => .badLength

/-- R200: the bytes of the write that carries a host command; an event has none, and a malformed write is not
spelt anew. -/
def encodeWrite : Instr → Option (List Byte)
  | .fileDemand k l d t => some ([0x01, 5, k, l] ++ bytesOfHalf d ++ [t])
  | .amendDemand h f l d => some ([0x02, 6] ++ bytesOfHalf h ++ [f, l] ++ bytesOfHalf d)
  | .retireDemand h => some ([0x03, 2] ++ bytesOfHalf h)
  | .readDemand h => some ([0x04, 2] ++ bytesOfHalf h)
  | .listDemands p => some [0x05, 1, p]
  | .readResolution => some [0x08, 0]
  | .readSensors => some [0x09, 0]
  | .readStation a => some [0x0A, 1, a]
  | .readHumidity => some [0x0B, 0]
  | .measure t => some [0x10, 1, t]
  | .readMeasure => some [0x11, 0]
  | .cancelMeasure => some [0x12, 0]
  | .readTap t => some [0x13, 1, t]
  | .fitFilter s g i b => some ([0x18, 6, s, g] ++ bytesOfHalf i ++ bytesOfHalf b)
  | .retireFilter s => some [0x19, 1, s]
  | .readFilter s => some [0x1A, 1, s]
  | .readFrost => some [0x1C, 0]
  | .relearnExchanger => some [0x1D, 0]
  | .setParam i v => some ([0x20, 5, i] ++ bytesOfWord v)
  | .getParam i => some [0x21, 1, i]
  | .setMode m => some [0x22, 1, m]
  | .setSource o s v => some ([0x23, 4, o, s] ++ bytesOfHalf v)
  | .writeCal f p d q => some ([0x24, 6, f, p] ++ bytesOfHalf d ++ bytesOfHalf q)
  | .readCal f => some [0x25, 1, f]
  | .readFans => some [0x26, 0]
  | .readNotices => some [0x28, 0]
  | .clearNotices f => some ([0x29, 2] ++ bytesOfHalf f)
  | .clearFanFault f => some [0x2A, 1, f]
  | .reset => some [0x30, 0]
  | .factoryClear => some [0x31, 0]
  | .badCommand _ | .factoryClearDone | .powerReset _ | .pinReset _ | .storeWriteStart
  | .storeWriteComplete | .analogSample _ _ | .holdTimerExpiry _ | .startupEnd | .contactLevelChange _ _
  | .tachWindowClose _ _ | .restEnd _ | .cleanRunEnd _ | .slewStep _ | .steadinessReached
  | .preheatPeriodStart | .preheatOnTimeEnd | .demandExpiry _ | .pollRoundStart | .pollSlot
  | .reportReceived _ | .replyBadCharacter | .replyTimeout | .stationHoldExpiry _ | .humiditySample _
  | .inhibitTimerExpiry _ | .settleEnd | .reading _ | .trimTimerExpiry | .filterTimerExpiry
  | .frostTimerExpiry | .frostEvaluation | .windowEdge | .cycleWrap | .volumeAddition
  | .operatingHoursAdvance | .pollEnd | .loadingEnd | .powerLoss => none

/-! ### Station bus frames -/

/-- R203: `k` shifts of the CRC register, each combining 0x31 at a shift out of a 1. -/
def crcShift : Nat → Byte → Byte
  | 0, r => r
  | k + 1, r => crcShift k (if r.msb then (r <<< 1) ^^^ 0x31#8 else r <<< 1)

/-- R203: the CRC of a frame, over its bytes from the address through the payload. -/
def crc (bytes : List Byte) : Byte := bytes.foldl (fun r b => crcShift 8 (r ^^^ b)) 0xFF#8

/-- R203: the POLL frame to an address, with the indicator code and the resolved level. -/
def pollFrame (address indicator level : Byte) : List Byte :=
  let body : List Byte := [address, 0x01, 2, indicator, level]
  0x7E#8 :: (body ++ [crc body])

/-- The fields of a REPORT payload (R203). -/
structure Report where
  kind : Machine.StationKind
  fault : Bool
  temperature : Option Int
  humidity : Option Int
  short : Byte
  long : Byte
  deriving DecidableEq, Repr

/-- R203: a temperature field, 0x7FFF absent. -/
def reportTemperature (h : Half) : Option Int := if h = 0x7FFF#16 then none else some h.toInt

/-- R203: a humidity field, 0xFFFF absent. -/
def reportHumidity (h : Half) : Option Int := if h = 0xFFFF#16 then none else some (h.toNat : Int)

/-- R52 and R203: the station kind, where it is ROOM or WET. -/
def reportKind (b : Byte) : Option Machine.StationKind :=
  if b = 0 then some .room else if b = 1 then some .wet else none

/-- R51 and R52: the report that the characters of a reply from the station with the given address carry, where
the reply is good. -/
def decodeReport (address : Byte) (chars : List Byte) : Option Report :=
  match chars with
  | [start, addr, type, len, k, f, t0, t1, h0, h1, s, l, c] =>
    if start = 0x7E#8 ∧ addr = address ∧ type = 0x81#8 ∧ len = 8#8
        ∧ c = crc [addr, type, len, k, f, t0, t1, h0, h1, s, l] then
      (reportKind k).map fun kind =>
        { kind, fault := f.getLsbD 0, temperature := reportTemperature (halfOf t0 t1)
          humidity := reportHumidity (halfOf h0 h1), short := s, long := l }
    else none
  | _ => none

end Sys2Proof
end

