-- ==== Sys2Proof/Machine/Humidity.lean ====
section
/-! DEFINITION. The humidity rule: readings (R67), the judgement of a sample in each state (R70 to R77), the release
of NIGHT (R78), levels (R75), the drying check (R80) and the HUMIDITY record (R81, R82), with the meanings of
HUMIDITY_SAMPLE and INHIBIT_TIMER_EXPIRY. -/

namespace Sys2Proof.Machine

/-! ### Readings -/

/-- R61: a station reading counts in VALID and HELD. -/
def Reading.usable (r : Reading) : Option Int :=
  match r.status with
  | .valid | .held => r.value
  | .pending | .invalid => none

/-- A pair of values, where both are there. -/
def pairOf (t h : Option Int) : Option (Int × Int) :=
  match t, h with
  | some t, some h => some (t, h)
  | _, _ => none

/-- R61: the reading a station record provides, temperature and humidity. -/
def Station.reading (x : Station) : Option (Int × Int) :=
  if x.kind = some .wet then pairOf x.temperature.usable x.humidity.usable else none

/-- R67: the reading of a source, temperature and humidity, where it is usable. -/
def State.sourceReading (s : State) : SourceId → Option (Int × Int)
  | .extract => pairOf s.sensing.ea.usable s.sensing.extractRh.usable
  | .station n => s.bus.stations[n].reading

/-! ### Levels and the drying check -/

/-- R75: the level of a rising source of deviation `e`. -/
def riseLevel (p : Params) (e : Int) : Nat :=
  let base := p.get .baseLevel
  let top := p.get .humLevelMax
  (clampInt (min base top) top (base + symRound ((top - base) * e) (2 * p.nat .humRise))).toNat

/-- R80: the drying check of a reading of temperature `t` and humidity `h`. -/
def noDryingAt (p : Params) (outdoor : Option Nat) (t h : Int) : Bool :=
  outdoor.any fun x => decide ((moisture t h : Int) - x < p.get .dryingMargin)

/-! ### A source's judgement -/

/-- The baseline, which is there in every state but DISARMED. -/
def Source.usual (x : Source) (s : Int) : Int := x.baseline.getD s

/-- R72, R77, R78: the source enters RISING on the deviation `e`. -/
def Source.rise (p : Params) (outdoor : Option Nat) (e t s : Int) (x : Source) : Source :=
  { x with state := .rising, run := 0, level := some (riseLevel p e), noDrying := noDryingAt p outdoor t s }

/-- R71: a usable sample in DISARMED. -/
def Source.arming (p : Params) (s : Int) (x : Source) : Source :=
  { x with
    arm := x.arm + 1
    baseline := some (x.usual s + symRound (s - x.usual s) 4)
    state := if p.nat .humArmSamples ≤ x.arm + 1 then .quiet else .disarmed }

/-- R72: a usable sample in QUIET, of deviation `e`. -/
def Source.watching (p : Params) (outdoor : Option Nat) (night : Bool) (e t s : Int) (x : Source) : Source :=
  if p.get .humRise ≤ e ∧ x.inhibit = 0 then
    if night ∧ p.get .quietNights = 1 then { x with state := .deferred } else x.rise p outdoor e t s
  else { x with baseline := some (x.usual s + symRound e 16) }

/-- R74: a usable sample in RISING, of deviation `e`. -/
def Source.rising (p : Params) (outdoor : Option Nat) (e t s : Int) (x : Source) : Source :=
  if e ≤ p.get .humRelease then
    { x with state := .quiet, level := none, noDrying := false, inhibit := p.nat .humInhibit * 60, run := 0 }
  else if 2 * p.nat .humMaxRun ≤ x.run + 1 then
    { x with state := .exhausted, level := none, noDrying := false, settle := 0, run := x.run + 1 }
  else
    { x with level := some (riseLevel p e), noDrying := noDryingAt p outdoor t s, run := x.run + 1 }

/-- R76: the baseline becomes `s` and the source QUIET. -/
def Source.rebase (s : Int) (x : Source) : Source := { x with baseline := some s, state := .quiet, settle := 0 }

/-- R76: a usable sample in EXHAUSTED, of deviation `e`, the sample before it being `prev`. -/
def Source.settling (p : Params) (e s prev : Int) (x : Source) : Source :=
  if e ≤ p.get .humRelease then x.rebase s
  else if ((s - prev).natAbs : Int) ≤ p.get .humRelease then
    if 10 ≤ x.settle + 1 then x.rebase s else { x with settle := x.settle + 1 }
  else { x with settle := 0 }

/-- R78: a DEFERRED source is judged on the deviation `e`. -/
def Source.judgeDeferred (p : Params) (outdoor : Option Nat) (e t s : Int) (x : Source) : Source :=
  if p.get .humRise ≤ e then x.rise p outdoor e t s else { x with state := .quiet }

/-- R77: a usable sample in DEFERRED, of deviation `e`. -/
def Source.deferring (p : Params) (outdoor : Option Nat) (e t s : Int) (x : Source) : Source :=
  if e ≤ p.get .humRelease then { x with state := .quiet }
  else if p.get .quietNights = 0 then x.judgeDeferred p outdoor e t s
  else x

/-- The sample of a usable reading of temperature `t`, by the state (R71, R72, R74, R76, R77). -/
def Source.judge (p : Params) (outdoor : Option Nat) (night : Bool) (t s : Int) (x : Source) : Source :=
  let e := s - x.usual s
  let y := { x with last := some (s, t), deviation := some e }
  match x.state with
  | .disarmed => { x with last := some (s, t), deviation := none }.arming p s
  | .quiet => y.watching p outdoor night e t s
  | .rising => y.rising p outdoor e t s
  | .exhausted => y.settling p e s ((x.last.map (·.1)).getD s)
  | .deferred => y.deferring p outdoor e t s

/-- R67 and R70: a sample of a source. A reading that is not usable disarms it, which leaves it as after a
reset. -/
def Source.sample (p : Params) (outdoor : Option Nat) (night : Bool) (reading : Option (Int × Int)) (x : Source) :
    Source :=
  match reading with
  | none => .afterReset
  | some (t, h) => x.judge p outdoor night t (clampInt 0 1000 h)

/-- R78: what the release of NIGHT makes of a source. -/
def Source.release (p : Params) (outdoor : Option Nat) (x : Source) : Source :=
  match x.state, x.last, x.deviation with
  | .deferred, some (s, t), some e => x.judgeDeferred p outdoor e t s
  | _, _, _ => x

/-! ### The contributor set and its record -/

/-- R81: the contributors. -/
def Humidity.members (h : Humidity) : List Source :=
  (SourceId.all.map h.source).filter fun x => x.state = .rising

/-- The largest level among contributors. -/
def topLevel (xs : List Source) : Nat := xs.foldl (fun m x => max m (x.level.getD 0)) 0

/-- R82: the level of the HUMIDITY record and whether it is HELD; absent where no record is to be live. -/
def Humidity.wanted (h : Humidity) : Option (Nat × Bool) :=
  match h.members, h.members.filter (!·.noDrying) with
  | [], _ => none
  | members, [] => some (topLevel members, true)
  | _, useful => some (topLevel useful, false)

/-- R49: the record of the humidity rule. -/
def humidityDraft (level : Nat) (held : Bool) : Draft := ⟨.humidity, .boost, level, none, .absent, held⟩

/-- R82: the HUMIDITY record is brought into line with the contributor set. -/
def State.alignHumidity (s : State) : State :=
  match s.demand.humidityRecord, s.humidity.wanted with
  | none, some (level, held) => s.fileRecord (humidityDraft level held)
  | some r, none => s.retireRecord r
  | some r, some (level, held) => s.amendRecord r fun x => { x with level, held }
  | none, none => s

/-- R69: the sample of a source as the part now stands. -/
def State.sampleSource (s : State) (i : SourceId) : Source :=
  (s.humidity.source i).sample s.params s.sensing.outdoorMoisture s.sensing.night.closed (s.sourceReading i)

/-- HUMIDITY_SAMPLE (R69). -/
def execHumiditySample (i : SourceId) (s : State) : Answer :=
  partEvent s fun s => { s with humidity := s.humidity.setSource i (s.sampleSource i) }.alignHumidity

/-- R78: every source after the release of NIGHT. -/
def Humidity.release (p : Params) (outdoor : Option Nat) (h : Humidity) : Humidity :=
  { extract := h.extract.release p outdoor, stations := eachStation (·.release p outdoor) h.stations }

/-- R78: the release of NIGHT. -/
def State.releaseNight (s : State) : State :=
  { s with humidity := s.humidity.release s.params s.sensing.outdoorMoisture }.alignHumidity

/-- INHIBIT_TIMER_EXPIRY (R73): the timer takes its last second. -/
def execInhibitTimerExpiry (i : SourceId) (s : State) : Answer :=
  partEvent s fun s =>
    { s with humidity := s.humidity.setSource i { s.humidity.source i with inhibit := 0 } }

end Sys2Proof.Machine
end

