-- ==== Sys2Proof/Machine/Contacts.lean ====
section
/-! DEFINITION. What follows a change of a contact's debounced level (R14): the cooker boost (R46, R47) and the
release of NIGHT (R78), with the meaning of CONTACT_LEVEL_CHANGE. -/

namespace Sys2Proof.Machine

/-- R46: COOKER taken as CLOSED. -/
def State.cookerClosed (s : State) : State :=
  match s.demand.byOrigin .cooker .boost with
  | some r => s.amendRecord r fun x => x.restart .absent
  | none => s.fileRecord ⟨.cooker, .boost, s.params.nat .cookerLevel, none, .absent, false⟩

/-- R47: COOKER taken as OPEN. -/
def State.cookerOpened (s : State) : State :=
  match s.demand.byOrigin .cooker .boost with
  | some r =>
    if s.params.nat .cookerRunon = 0 then s.retireRecord r
    else s.amendRecord r fun x => x.restart (.minutes (s.params.nat .cookerRunon))
  | none => s

/-- R14: a changed level goes to the demand table or the humidity rule. The assertion of NIGHT changes no source
(R78). -/
def State.passContact (s : State) (c : Contact) (closed : Bool) : State :=
  match c, closed with
  | .cooker, true => s.cookerClosed
  | .cooker, false => s.cookerOpened
  | .night, true => s
  | .night, false => s.releaseNight

/-- R13 and R14: one 50 ms sample of a contact. -/
def State.sampleContact (c : Contact) (s : State) (high : Bool) : State :=
  let new := (s.sensing.contact c).sample high
  let t := { s with sensing := s.sensing.setContact c new }
  if new.closed = (s.sensing.contact c).closed then t else t.passContact c new.closed

/-- CONTACT_LEVEL_CHANGE (R13): the samples that bring the change. -/
def execContactLevelChange (c : Contact) (samples : List Bool) (s : State) : Answer :=
  partEvent s fun s => samples.foldl (State.sampleContact c) s

end Sys2Proof.Machine
end

