-- ==== Sys2Proof/Machine/Station.lean ====
section
/-! DEFINITION. The station bus controller: poll rounds and slots (R53), what a poll carries (R64, R65), the
judgement of an exchange (R51, R52), good replies and misses (R56, R57), room readings (R59, R60), presses (R62,
R63) and changes of the enabled set (R58), with the meanings of POLL_ROUND_START, POLL_SLOT, POLL_END,
REPORT_RECEIVED, REPLY_BAD_CHARACTER, REPLY_TIMEOUT and STATION_HOLD_EXPIRY. -/

namespace Sys2Proof.Machine

/-- The record of a station takes new items. -/
def State.setStation (s : State) (n : StationId) (x : Station) : State :=
  { s with bus := { s.bus with stations := s.bus.stations.set n x } }

/-- The exchange in flight takes new items. -/
def State.setExchange (s : State) (x : Exchange) : State := { s with bus := { s.bus with exchange := x } }

/-! ### Rounds and slots -/

/-- R53: the station is polled in the round that begins at second `now`. -/
def Station.due (x : Station) (now : Nat) : Bool :=
  match x.state with
  | .unconfigured => false
  | .online => true
  | .seeking | .lost => x.lastRound.all fun r => decide (10 ≤ now - r)

/-- POLL_ROUND_START (R53). -/
def execPollRoundStart (s : State) : Answer :=
  partEvent s fun s =>
    { s with bus :=
      { s.bus with stations := eachStation (fun x => { x with marked := x.due s.clock.seconds }) s.bus.stations } }

/-- R53: the station is marked and in a state. -/
def Station.markedIn (x : Station) (st : StationState) : Bool := x.marked && x.state = st

/-- R53: the station polled in the slot that begins now. -/
def Bus.nextPoll (b : Bus) : Option StationId :=
  ((List.finRange 6).find? fun n => b.stations[n].markedIn .online).or
    ((List.finRange 6).find? fun n => b.stations[n].markedIn .seeking || b.stations[n].markedIn .lost)

/-- R64 case 3: the station's own room is being answered. -/
def State.roomAnswered (s : State) (n : StationId) : Bool :=
  (s.demand.stationBoost n).any (!·.held)
    || (s.demand.humidityRecord.any (!·.held) && s.humidity.stations[n].state = .rising
          && !s.humidity.stations[n].noDrying)

/-- R64: the indicator a poll to a station carries. -/
def State.indicator (s : State) (n : StationId) : Indicator :=
  if s.frost.stage = .stop ∨ s.drive.sup.state = .locked ∨ s.drive.ext.state = .locked then .fastBlink
  else if s.filters.anyIn .due || s.filters.anyIn .overdue || s.filters.missing then .slowBlink
  else if s.roomAnswered n then .steady
  else .off

/-- R65 and R203: the POLL to a station as the part now stands. -/
def State.pollTo (s : State) (n : StationId) : List Byte :=
  pollFrame (addressOf n) (BitVec.ofNat 8 (codeOf Indicator.members (s.indicator n)))
    (BitVec.ofNat 8 s.resolver.view.d)

/-- R51 and R53: the exchange with a station begins. -/
def State.poll (s : State) (n : StationId) : State :=
  (s.setStation n
    { s.bus.stations[n] with
      marked := false, lastRound := some s.clock.seconds, indicator := s.indicator n }).setExchange
    (.sending n (s.pollTo n) 0)

/-- POLL_SLOT (R53): a slot in which no station is marked is free. -/
def execPollSlot (s : State) : Answer :=
  partEvent s fun s =>
    match s.bus.nextPoll with
    | some n => s.poll n
    | none => s

/-- R51: the end of the poll's last stop bit. -/
def Exchange.endPoll : Exchange → Exchange
  | .sending n _ _ => .window n 0 false
  | .void _ _ => .idle
  | x => x

/-- POLL_END (R51): SBDE is released and the reply window opens. -/
def execPollEnd (s : State) : Answer := partEvent s fun s => s.setExchange s.bus.exchange.endPoll

/-! ### Good replies -/

/-- R59: a reading as a good reply gives it. -/
def Reading.take (fault : Bool) (value : Option Int) : Reading :=
  match fault, value with
  | false, some v => ⟨.valid, some v⟩
  | _, _ => .invalid

/-- R59: a reading's move sets the SENSOR notice. -/
def readingNotice (old new : Reading) : Bool :=
  (new.status = .invalid && old.status != .invalid) || (old.status = .invalid && new.status = .valid)

/-- R56: the state after a good reply. -/
def StationState.answered : StationState → StationState
  | .seeking | .lost | .online => .online
  | .unconfigured => .unconfigured

/-- R56, R59 and R62: the record after a good reply. -/
def Station.good (x : Station) (r : Report) (now : Nat) : Station :=
  { x with
    state := x.state.answered, kind := some r.kind, misses := 0, lastGood := some now, hold := 0
    temperature := .take r.fault r.temperature, humidity := .take r.fault r.humidity
    presses := some (r.short, r.long) }

/-- R62: the presses a good reply yields, short and long. A difference above 0, whatever its size, is one
press. -/
def Station.pressed (x : Station) (r : Report) : Bool × Bool :=
  match x.presses with
  | some (short, long) => (r.short != short, r.long != long)
  | none => (false, false)

/-- R43: a short press. -/
def State.shortPress (s : State) (n : StationId) : State :=
  match s.demand.byOrigin (.station n) .boost with
  | some r => s.amendRecord r fun x => x.restart (.minutes (s.params.nat .boostTime))
  | none =>
    s.fileRecord
      ⟨.station n, .boost, s.params.nat .boostLevel, none, .minutes (s.params.nat .boostTime), false⟩

/-- R44: a long press. -/
def State.longPress (s : State) (n : StationId) : State :=
  match s.demand.byOrigin (.station n) .boost with
  | some r => s.retireRecord r
  | none => s

/-- R44 and R63: the presses of a reply, a long one or both together taken as a cancel. -/
def State.takePresses (s : State) (n : StationId) : Bool × Bool → State
  | (_, true) => s.longPress n
  | (true, false) => s.shortPress n
  | (false, false) => s

/-- R56: a good reply is taken whole. -/
def State.goodReply (s : State) (n : StationId) (r : Report) : State :=
  let x := s.bus.stations[n]
  let y := x.good r s.clock.seconds
  ((((s.setStation n y).notifyIf (y.state != x.state) .station).notifyIf
    (readingNotice x.temperature y.temperature || readingNotice x.humidity y.humidity) .sensor)).takePresses n
      (x.pressed r)

/-! ### Misses -/

/-- R60: a VALID reading is held. -/
def Reading.held (r : Reading) : Reading := if r.status = .valid then { r with status := .held } else r

/-- R57 and R60: an ONLINE station becomes LOST. -/
def Station.lose (x : Station) : Station :=
  { x with
    state := .lost, presses := none, temperature := x.temperature.held, humidity := x.humidity.held
    hold := if x.temperature.status = .valid ∨ x.humidity.status = .valid then 600 else 0 }

/-- R57: the record after a miss. -/
def Station.miss (x : Station) : Station :=
  let y := { x with misses := min 255 (x.misses + 1) }
  if x.state = .online ∧ 3 ≤ y.misses then y.lose else y

/-- R57: a miss. -/
def State.missReply (s : State) (n : StationId) : State :=
  let y := s.bus.stations[n].miss
  (s.setStation n y).notifyIf (y.state != s.bus.stations[n].state) .station

/-! ### The judgement -/

/-- R51 and R52: the exchange is judged on a complete frame. -/
def State.judgeReply (s : State) (n : StationId) (chars : List Byte) : State :=
  match decodeReport (addressOf n) chars with
  | some r => (s.setExchange .idle).goodReply n r
  | none => (s.setExchange .idle).missReply n

/-- R51: the start bit of the first character received after the end of the poll begins the reply. By one that comes after 15 ms
the exchange is lost. -/
def Exchange.beginReply : Exchange → Exchange
  | .window n t begun => .window n t (begun || decide (t ≤ 15))
  | x => x

/-- R51: a frame complete at `elapsed` ms of its window is in time: within 15 ms of the end of the poll, or within 30 ms where
its reply had begun in the first 15. -/
def replyInTime (elapsed : Nat) (begun : Bool) : Bool := decide (elapsed ≤ 15) || (begun && decide (elapsed ≤ 30))

/-- R51 and R52: a reply is complete. A frame that is late is a miss, and characters that come outside a reply window are
discarded. -/
def State.takeFrame (s : State) (chars : List Byte) : State :=
  match s.bus.exchange with
  | .window n t begun => if replyInTime t begun then s.judgeReply n chars else (s.setExchange .idle).missReply n
  | .idle | .sending _ _ _ | .void _ _ => s

/-- REPORT_RECEIVED (R51, R52): a reply begins, or is complete (assumption 14). -/
def execReportReceived (chars : Option (List Byte)) (s : State) : Answer :=
  partEvent s fun s =>
    match chars with
    | none => s.setExchange s.bus.exchange.beginReply
    | some chars => s.takeFrame chars

/-- R51: the exchange, where its window is open, is judged a miss. -/
def State.judgeMiss (s : State) : State :=
  match s.bus.exchange with
  | .window n _ _ => (s.setExchange .idle).missReply n
  | .idle | .sending _ _ _ | .void _ _ => s

/-- REPLY_BAD_CHARACTER (R51). -/
def execReplyBadCharacter (s : State) : Answer := partEvent s State.judgeMiss

/-- REPLY_TIMEOUT (R51). -/
def execReplyTimeout (s : State) : Answer := partEvent s State.judgeMiss

/-! ### Holds and the enabled set -/

/-- R60: a HELD reading ends. -/
def Reading.expire (r : Reading) : Reading := if r.status = .held then .invalid else r

/-- STATION_HOLD_EXPIRY (R60). A stopped timer has nothing to expire. -/
def execStationHoldExpiry (n : StationId) (s : State) : Answer :=
  partEvent s fun s =>
    let x := s.bus.stations[n]
    if x.hold = 0 then s
    else
      (s.setStation n
        { x with hold := 0, temperature := x.temperature.expire, humidity := x.humidity.expire }).notify .sensor

/-- R58: the record of a station that is, or is not, in the new set. -/
def Station.enable (x : Station) (enabled : Bool) : Station :=
  if enabled then
    if x.state = .unconfigured then { Station.fresh .seeking with marked := true } else x
  else if x.state = .unconfigured then x
  else .fresh .unconfigured

/-- R58: the exchange after a change of the set: void where its station has left. -/
def Exchange.enable (x : Exchange) (enabled : BitVec 6) : Exchange :=
  match x with
  | .sending n frame t => if enabled.getLsbD n then x else .void frame t
  | .window n _ _ => if enabled.getLsbD n then x else .idle
  | .idle | .void _ _ => x

/-- R58 and R59: a removal ends a reading that was VALID or HELD, which sets SENSOR (assumption 13). -/
def Bus.losesReading (b : Bus) (enabled : BitVec 6) : Bool :=
  (List.finRange 6).any fun n =>
    readingNotice b.stations[n].temperature (b.stations[n].enable (enabled.getLsbD n)).temperature
      || readingNotice b.stations[n].humidity (b.stations[n].enable (enabled.getLsbD n)).humidity

/-- R58: STATIONS_ENABLED takes a new value. -/
def State.enableStations (s : State) (enabled : BitVec 6) : State :=
  { s with bus :=
    { stations := Vector.ofFn fun n => s.bus.stations[n].enable (enabled.getLsbD n)
      exchange := s.bus.exchange.enable enabled } }.notifyIf (s.bus.losesReading enabled) .sensor

end Sys2Proof.Machine
end

