-- ==== Sys2Proof/Machine/HostLink.lean ====
section
/-! DEFINITION. Parameters (R187, R188) and the clearing of notices (R190), with the meanings of SET_PARAM, GET_PARAM
and CLEAR_NOTICES. -/

namespace Sys2Proof.Machine

/-- R188: what a changed parameter reaches at the execution of SET_PARAM. -/
def State.paramReaches (s : State) (x : Param) : State :=
  if x.resolverReads then s.inputChanged
  else if x = .steadyTime then s.refreshSteady.channelTail
  else if x = .stationsEnabled then s.enableStations s.params.stations
  else s

/-- R187: the parameter takes a value; one that differs changes the parameter block and reaches its readers. -/
def State.setParam (s : State) (x : Param) (v : Int) : State :=
  if s.params.get x = v then s
  else ({ s with params := s.params.set x v }.paramReaches x).changed .parameters

/-- R200: the response of SET_PARAM and GET_PARAM. -/
def State.paramReport (s : State) (ident : Byte) (x : Param) : List Byte :=
  ident :: bytesOfInt 4 (s.params.get x)

/-- SET_PARAM (R187). -/
def execSetParam (ident : Byte) (value : Word) (s : State) : Answer :=
  hostCommand s fun s =>
    match Param.ofIdent ident with
    | none => s.refuse .badValue
    | some x =>
      let v := s.params.accepted x value
      let t := s.setParam x v
      t.respond (clampStatus (v != x.carried value)) (t.paramReport ident x)

/-- GET_PARAM (R188). -/
def execGetParam (ident : Byte) (s : State) : Answer :=
  hostCommand s fun s =>
    match Param.ofIdent ident with
    | none => s.refuse .badValue
    | some x => s.respond .ok (s.paramReport ident x)

/-- R190: the flags named are cleared. -/
def Notices.clear (n : Notices) (flags : BitVec 9) : Notices := { n with flags := n.flags &&& ~~~flags }

/-- R190: an accepted set of flags is cleared. -/
def State.clearNotices (s : State) (flags : BitVec 9) : State := { s with notices := s.notices.clear flags }

/-- CLEAR_NOTICES (R190). -/
def execClearNotices (flags : Half) (s : State) : Answer :=
  hostCommand s fun s =>
    if 512 ≤ flags.toNat then s.refuse .badValue
    else
      let t := s.clearNotices (flags.extractLsb' 0 9)
      t.respond .ok (bytesOf 2 t.notices.flags.toNat)

end Sys2Proof.Machine
end

