-- ==== Sys2Proof/Machine/Store.lean ====
section
/-! DEFINITION. The settings store and resets: background writes (R194), loading (R193, R180), the result of a reset
(R195), RESET (R196), FACTORY_CLEAR (R197) and the loss of the supply, with the meanings of STORE_WRITE_START,
STORE_WRITE_COMPLETE, FACTORY_CLEAR_DONE, RESET, FACTORY_CLEAR, POWER_RESET, PIN_RESET, LOADING_END and POWER_LOSS. -/

namespace Sys2Proof.Machine

/-! ### Background writes -/

/-- R193: the six blocks, in their order. -/
def Block.all : List Block :=
  [.parameters, .calibrations, .filterRecords, .exchangerBaseline, .hours, .storedMode]

/-- R193: the default contents of a block. -/
def Block.defaultImage : Block → Image
  | .parameters => .parameters .default
  | .calibrations => .calibrations .default
  | .filterRecords => .filterRecords .default
  | .exchangerBaseline => .exchangerBaseline .default
  | .hours => .hours 0
  | .storedMode => .storedMode .standby

/-- R170 and R181: a record as the store keeps it, without last valid at. -/
def FilterRecord.stored (r : FilterRecord) : FilterRecord := { r with lastValid := none }

/-- R181: the slots as the store keeps them. -/
def Filters.stored (f : Filters) : Filters := ⟨f.supply.map (·.stored), f.extract.map (·.stored)⟩

/-- R194: the contents of a block as they stand. -/
def State.image (s : State) : Block → Image
  | .parameters => .parameters s.params
  | .calibrations => .calibrations s.drive.cals
  | .filterRecords => .filterRecords s.filters.stored
  | .exchangerBaseline => .exchangerBaseline s.frost.baseline
  | .hours => .hours s.hours
  | .storedMode => .storedMode s.resolver.stored

/-- R194: a block of the memory holds a written image. -/
def Store.put (t : Store) : Image → Store
  | .parameters x => { t with params := some x }
  | .calibrations x => { t with cals := some x }
  | .filterRecords x => { t with filters := some x }
  | .exchangerBaseline x => { t with baseline := some x }
  | .hours x => { t with hours := some x }
  | .storedMode x => { t with mode := some x }

/-- R194: the block an image is written to fails its check. -/
def Store.spoil (t : Store) : Image → Store
  | .parameters _ => { t with params := none }
  | .calibrations _ => { t with cals := none }
  | .filterRecords _ => { t with filters := none }
  | .exchangerBaseline _ => { t with baseline := none }
  | .hours _ => { t with hours := none }
  | .storedMode _ => { t with mode := none }

/-- R194 and R197: the store with the next write started, the block taken from the clearing where one is under way
and else from the pending queue. -/
def State.nextWrite (s : State) : Store :=
  match s.store.writing, s.store.clearing, s.store.queue with
  | some _, _, _ => s.store
  | none, some (b :: rest), _ =>
    { s.store with writing := some b.defaultImage, writeElapsed := 0, clearing := some rest }
  | none, some [], _ => s.store
  | none, none, b :: rest => { s.store with writing := some (s.image b), writeElapsed := 0, queue := rest }
  | none, none, [] => s.store

/-- STORE_WRITE_START (R194, R197). -/
def execStoreWriteStart (s : State) : Answer := partEvent s fun s => { s with store := s.nextWrite }

/-- R194: the write in progress is complete. -/
def Store.finish (t : Store) : Store :=
  match t.writing with
  | some x => { t.put x with writing := none, writeElapsed := 0 }
  | none => t

/-- STORE_WRITE_COMPLETE (R194). -/
def execStoreWriteComplete (s : State) : Answer := partEvent s fun s => { s with store := s.store.finish }

/-- R197: the write in progress is one of a clearing's defaults. -/
def Store.clearingWrite (t : Store) : Bool := t.clearing.any fun rest => decide (rest.length < Block.all.length)

/-- R194: what becomes of the memory when the write of `x` is cut short: its block fails its check, keeps its old
contents or holds the new ones. -/
def Store.cutTo (t : Store) (x : Image) (v : Nat) : Store :=
  match v % 3 with
  | 0 => t.spoil x
  | 1 => t
  | _ => t.put x

/-- R194 and R197: a write in progress is cut short, with the free value `v` (assumption 3); a clearing's write that
a loss of power cuts short leaves its block failing its check. -/
def Store.cut (t : Store) (powerLost : Bool) (v : Nat) : Store :=
  match t.writing with
  | some x =>
    { (if powerLost && t.clearingWrite then t.spoil x else t.cutTo x v) with writing := none, writeElapsed := 0 }
  | none => t

/-- R194: a write in progress is cut short, which reads a free value. -/
def State.cutWrite (s : State) (powerLost : Bool) : State :=
  if s.store.writing.isSome then
    { s with store := s.store.cut powerLost (Config.cutWrite s.freeCount), freeCount := s.freeCount + 1 }
  else s

/-! ### Loading -/

/-- R193: the set of blocks that are blank or fail their check. -/
def Store.failed (t : Store) : BitVec 6 :=
  BitVec.ofNat 6 (setOf [t.params.isNone, t.cals.isNone, t.filters.isNone, t.baseline.isNone, t.hours.isNone,
    t.mode.isNone])

/-- R180 and R170: a record as it is loaded beside the loaded hours. -/
def FilterRecord.loaded (hours : Nat) (r : FilterRecord) : FilterRecord :=
  { r with fittedAt := min r.fittedAt hours, lastValid := none }

/-- R170 and R180: the slots as they are loaded. -/
def Store.loadFilters (t : Store) : Filters :=
  let f := t.filters.getD .default
  let hours := t.hours.getD 0
  ⟨f.supply.map (·.loaded hours), f.extract.map (·.loaded hours)⟩

/-- R180: a loaded record's fitted-at value lies above the loaded hours. -/
def Store.correctsFitting (t : Store) : Bool :=
  let f := t.filters.getD .default
  let hours := t.hours.getD 0
  f.supply.any (fun r => decide (hours < r.fittedAt)) || f.extract.any fun r => decide (hours < r.fittedAt)

/-- R194 and R180: the store after a reset, every block CLEAN, or the filter block PENDING where a fitted-at value is
corrected. -/
def Store.afterReset (t : Store) : Store :=
  { t with
    queue := if t.correctsFitting then [.filterRecords] else []
    writing := none, writeElapsed := 0, clearing := none }

/-! ### Resets -/

/-- R189 and R195: the notices after a reset. -/
def Notices.afterReset (cause : ResetCause) (failed : BitVec 6) : Notices :=
  { flags := Notice.reset.flag ||| (if failed = 0 then 0 else Notice.store.flag), cause, defaulted := failed }

/-- R195: the result of a reset with the given levels at the straps, from the memory as it stands. -/
def State.reload (s : State) (cause : ResetCause) (straps : BitVec 2) : State :=
  let t := s.store
  let p := t.params.getD .default
  let b := t.baseline.getD .default
  { pending := s.pending, agenda := [], freeCount := s.freeCount, life := .running
    clock := ⟨0, 0⟩
    hours := t.hours.getD 0
    link := ⟨⟨.none, []⟩, straps, true⟩
    notices := .afterReset cause t.failed
    params := p
    sensing := .afterReset
    demand := .afterReset
    bus := .afterReset p.stations
    humidity := .afterReset
    resolver := .afterReset p (t.mode.getD .standby)
    drive := .afterReset (t.cals.getD .default)
    pressure := .afterReset p b
    frost := .afterReset p b
    filters := t.loadFilters
    store := t.afterReset }

/-- R195: a reset with the given levels at the straps. A write in progress is cut short first. -/
def State.restart (s : State) (cause : ResetCause) (straps : BitVec 2) : State :=
  (s.cutWrite (cause = .power)).reload cause straps

/-- R195: a reset with the cause COMMAND. The levels at the straps are a free value (assumption 15). -/
def State.commandReset (s : State) : State :=
  let t := s.cutWrite false
  { t with freeCount := t.freeCount + 1 }.reload .command (Config.strapLevels t.freeCount)

/-- R195: the supply rises. The reset ends at once where RST_N is high, and is held where it is low. -/
def State.supplyRise (s : State) (straps : BitVec 2) : State :=
  match s.life with
  | .running | .off false => s.restart .power straps
  | .held _ | .off true => { s with life := .held .power }

/-- POWER_RESET (R195), with the levels at ADR1 and ADR0. -/
def execPowerReset (straps : BitVec 2) (s : State) : Answer := .next (s.supplyRise straps)

/-- R195: RST_N falls. A running part is held in reset, which cuts short a write in progress. -/
def State.resetLow (s : State) : State :=
  match s.life with
  | .running => { s.cutWrite false with life := .held .pin }
  | .held _ => s
  | .off _ => { s with life := .off true }

/-- R195: RST_N rises. A held reset ends; given alone to a running part, the rise stands for the whole pulse. -/
def State.resetHigh (s : State) (straps : BitVec 2) : State :=
  match s.life with
  | .running => s.restart .pin straps
  | .held cause => s.restart cause straps
  | .off _ => { s with life := .off false }

/-- PIN_RESET (R195): RST_N falls, or rises with the given levels at ADR1 and ADR0 (assumption 37). -/
def execPinReset (released : Option (BitVec 2)) (s : State) : Answer :=
  .next (match released with
    | none => s.resetLow
    | some straps => s.resetHigh straps)

/-- RESET (R196). -/
def execReset (s : State) : Answer := hostCommand s State.commandReset

/-- R197: an accepted FACTORY_CLEAR. The blocks are written in the order of R193's table (DESIGN CHOICE, assumption 43: R197
says "one after another"). -/
def Store.beginClear (t : Store) : Store := { t with queue := [], clearing := some Block.all }

/-- FACTORY_CLEAR (R197). -/
def execFactoryClear (s : State) : Answer :=
  hostCommand s fun s =>
    if s.resolver.mode = .standby then { s with store := s.store.beginClear } else s.refuse .wrongMode

/-- R197: the memory with every block written with its default. -/
def Store.cleared (t : Store) : Store :=
  { Block.all.foldl (fun t b => t.put b.defaultImage) t with writing := none, writeElapsed := 0 }

/-- FACTORY_CLEAR_DONE (R197): the last default block is written, and the part resets. -/
def execFactoryClearDone (s : State) : Answer :=
  partEvent s fun s =>
    if s.store.clearing.isSome then { s with store := s.store.cleared }.commandReset else s

/-- LOADING_END (R183): the part acknowledges its address from here on. -/
def execLoadingEnd (s : State) : Answer := partEvent s fun s => { s with link := { s.link with loading := false } }

/-- R194 and R197: the supply is lost. A running part stops, and a write in progress is cut short. -/
def State.supplyLoss (s : State) : State :=
  match s.life with
  | .running => { s.cutWrite true with life := .off false }
  | .held _ => { s with life := .off true }
  | .off _ => s

/-- POWER_LOSS (R194, R197). -/
def execPowerLoss (s : State) : Answer := .next s.supplyLoss

end Sys2Proof.Machine
end

