-- ==== Sys2Proof/Machine/HostWrite.lean ====
section
/-! DEFINITION. A write transaction given as its bytes (R184), with the meaning of BAD_COMMAND. -/

namespace Sys2Proof.Machine

/-- R184 step 5: the block that owns a command executes it. An event is no command of the host. -/
def runHost (c : Instr) (s : State) : Answer :=
  match c with
  | .fileDemand k l d t => execFileDemand k l d t s
  | .amendDemand h f l d => execAmendDemand h f l d s
  | .retireDemand h => execRetireDemand h s
  | .readDemand h => execReadDemand h s
  | .listDemands p => execListDemands p s
  | .readResolution => execReadResolution s
  | .readSensors => execReadSensors s
  | .readStation a => execReadStation a s
  | .readHumidity => execReadHumidity s
  | .measure t => execMeasure t s
  | .readMeasure => execReadMeasure s
  | .cancelMeasure => execCancelMeasure s
  | .readTap t => execReadTap t s
  | .fitFilter i g n b => execFitFilter i g n b s
  | .retireFilter i => execRetireFilter i s
  | .readFilter i => execReadFilter i s
  | .readFrost => execReadFrost s
  | .relearnExchanger => execRelearnExchanger s
  | .setParam i v => execSetParam i v s
  | .getParam i => execGetParam i s
  | .setMode m => execSetMode m s
  | .setSource o x v => execSetSource o x v s
  | .writeCal f p d q => execWriteCal f p d q s
  | .readCal f => execReadCal f s
  | .readFans => execReadFans s
  | .readNotices => execReadNotices s
  | .clearNotices f => execClearNotices f s
  | .clearFanFault f => execClearFanFault f s
  | .reset => execReset s
  | .factoryClear => execFactoryClear s
  | _ => .next s

/-- BAD_COMMAND (R184): a write of the given bytes after the address. The row is the writes that R184 refuses; the
bytes of a well-formed command execute it. -/
def execBadCommand (bytes : List Byte) (s : State) : Answer :=
  match decodeWrite bytes with
  | .empty => .next s
  | .badLength => hostCommand s fun s => s.refuse .badLength
  | .badCommand => hostCommand s fun s => s.refuse .badCommand
  | .command c => runHost c s

end Sys2Proof.Machine
end

