-- ==== Sys2Proof/Machine/Dispatch.lean ====
section
/-! DEFINITION. The meaning of each command and event, one arm for each row of spec/opcode_table.json. -/

namespace Sys2Proof.Machine

/-- What a command or event does to everything but the queue. -/
def exec (i : Instr) (s : State) : Host.Outcome State Fault Refusal :=
  match i with
  | .fileDemand kind level duration tag => Sys2Proof.Machine.execFileDemand kind level duration tag s
  | .amendDemand handle fields level duration => Sys2Proof.Machine.execAmendDemand handle fields level duration s
  | .retireDemand handle => Sys2Proof.Machine.execRetireDemand handle s
  | .readDemand handle => Sys2Proof.Machine.execReadDemand handle s
  | .listDemands position => Sys2Proof.Machine.execListDemands position s
  | .readResolution => Sys2Proof.Machine.execReadResolution s
  | .readSensors => Sys2Proof.Machine.execReadSensors s
  | .readStation address => Sys2Proof.Machine.execReadStation address s
  | .readHumidity => Sys2Proof.Machine.execReadHumidity s
  | .measure tap => Sys2Proof.Machine.execMeasure tap s
  | .readMeasure => Sys2Proof.Machine.execReadMeasure s
  | .cancelMeasure => Sys2Proof.Machine.execCancelMeasure s
  | .readTap tap => Sys2Proof.Machine.execReadTap tap s
  | .fitFilter slot grade interval baseline => Sys2Proof.Machine.execFitFilter slot grade interval baseline s
  | .retireFilter slot => Sys2Proof.Machine.execRetireFilter slot s
  | .readFilter slot => Sys2Proof.Machine.execReadFilter slot s
  | .readFrost => Sys2Proof.Machine.execReadFrost s
  | .relearnExchanger => Sys2Proof.Machine.execRelearnExchanger s
  | .setParam ident value => Sys2Proof.Machine.execSetParam ident value s
  | .getParam ident => Sys2Proof.Machine.execGetParam ident s
  | .setMode mode => Sys2Proof.Machine.execSetMode mode s
  | .setSource output source value => Sys2Proof.Machine.execSetSource output source value s
  | .writeCal fan point duty flow => Sys2Proof.Machine.execWriteCal fan point duty flow s
  | .readCal fan => Sys2Proof.Machine.execReadCal fan s
  | .readFans => Sys2Proof.Machine.execReadFans s
  | .readNotices => Sys2Proof.Machine.execReadNotices s
  | .clearNotices flags => Sys2Proof.Machine.execClearNotices flags s
  | .clearFanFault fan => Sys2Proof.Machine.execClearFanFault fan s
  | .reset => Sys2Proof.Machine.execReset s
  | .factoryClear => Sys2Proof.Machine.execFactoryClear s
  | .badCommand bytes => Sys2Proof.Machine.execBadCommand bytes s
  | .factoryClearDone => Sys2Proof.Machine.execFactoryClearDone s
  | .powerReset straps => Sys2Proof.Machine.execPowerReset straps s
  | .pinReset released => Sys2Proof.Machine.execPinReset released s
  | .storeWriteStart => Sys2Proof.Machine.execStoreWriteStart s
  | .storeWriteComplete => Sys2Proof.Machine.execStoreWriteComplete s
  | .analogSample channel conversions => Sys2Proof.Machine.execAnalogSample channel conversions s
  | .holdTimerExpiry channel => Sys2Proof.Machine.execHoldTimerExpiry channel s
  | .startupEnd => Sys2Proof.Machine.execStartupEnd s
  | .contactLevelChange contact samples => Sys2Proof.Machine.execContactLevelChange contact samples s
  | .tachWindowClose fan samples => Sys2Proof.Machine.execTachWindowClose fan samples s
  | .restEnd fan => Sys2Proof.Machine.execRestEnd fan s
  | .cleanRunEnd fan => Sys2Proof.Machine.execCleanRunEnd fan s
  | .slewStep fan => Sys2Proof.Machine.execSlewStep fan s
  | .steadinessReached => Sys2Proof.Machine.execSteadinessReached s
  | .preheatPeriodStart => Sys2Proof.Machine.execPreheatPeriodStart s
  | .preheatOnTimeEnd => Sys2Proof.Machine.execPreheatOnTimeEnd s
  | .demandExpiry handle => Sys2Proof.Machine.execDemandExpiry handle s
  | .pollRoundStart => Sys2Proof.Machine.execPollRoundStart s
  | .pollSlot => Sys2Proof.Machine.execPollSlot s
  | .reportReceived chars => Sys2Proof.Machine.execReportReceived chars s
  | .replyBadCharacter => Sys2Proof.Machine.execReplyBadCharacter s
  | .replyTimeout => Sys2Proof.Machine.execReplyTimeout s
  | .stationHoldExpiry station => Sys2Proof.Machine.execStationHoldExpiry station s
  | .humiditySample source => Sys2Proof.Machine.execHumiditySample source s
  | .inhibitTimerExpiry source => Sys2Proof.Machine.execInhibitTimerExpiry source s
  | .settleEnd => Sys2Proof.Machine.execSettleEnd s
  | .reading conversion => Sys2Proof.Machine.execReading conversion s
  | .trimTimerExpiry => Sys2Proof.Machine.execTrimTimerExpiry s
  | .filterTimerExpiry => Sys2Proof.Machine.execFilterTimerExpiry s
  | .frostTimerExpiry => Sys2Proof.Machine.execFrostTimerExpiry s
  | .frostEvaluation => Sys2Proof.Machine.execFrostEvaluation s
  | .windowEdge => Sys2Proof.Machine.execWindowEdge s
  | .cycleWrap => Sys2Proof.Machine.execCycleWrap s
  | .volumeAddition => Sys2Proof.Machine.execVolumeAddition s
  | .operatingHoursAdvance => Sys2Proof.Machine.execOperatingHoursAdvance s
  | .pollEnd => Sys2Proof.Machine.execPollEnd s
  | .loadingEnd => Sys2Proof.Machine.execLoadingEnd s
  | .powerLoss => Sys2Proof.Machine.execPowerLoss s

end Sys2Proof.Machine
end

