-- ==== Sys2Proof/Machine/Tick.lean ====
section
/-! DEFINITION. The passing of time while no command waits (assumption 2): one millisecond at a time, with the events
of the part's own timers taken as they come due. A timer that counts down holds at least 1 while it runs: its last
unit is taken by the event of its running out. -/

namespace Sys2Proof.Machine

/-! ### Events that a condition makes due -/

/-- An event where a condition holds. -/
def dueIf (c : Bool) (e : Instr) : List Instr := if c then [e] else []

/-- R100: start-up ends. -/
def State.startupOver (s : State) : Bool :=
  s.resolver.mode = .startup
    && ((s.sensing.oa.status != .pending && s.sensing.sa.status != .pending && s.sensing.ea.status != .pending
          && s.sensing.eha.status != .pending)
        || decide (3 ≤ s.clock.seconds))

/-- R116: the steadiness timer has reached STEADY_TIME. -/
def State.steadinessDue (s : State) : Bool := s.steadyNow && !s.drive.steady

/-- R129: the settle is over. -/
def State.settleOver (s : State) : Bool :=
  match s.pressure.phase with
  | .select _ => decide (settleTime ≤ s.timeAtPosition)
  | .free | .sample _ => false

/-- R203: the 3.65 ms of a POLL, in whole milliseconds (assumption 8). -/
def pollTime : Nat := 4

/-- R51: the end of the poll, and the end of its reply window: at 15 ms with no reply begun, and at 30 ms. -/
def Exchange.due : Exchange → List Instr
  | .idle => []
  | .sending _ _ t | .void _ t => dueIf (decide (pollTime ≤ t)) .pollEnd
  | .window _ t begun => dueIf (decide (30 ≤ t) || (decide (15 ≤ t) && !begun)) .replyTimeout

/-- R123: the on-time of the present period is over. -/
def State.onTimeOver (s : State) : Bool :=
  let h := s.drive.preheater
  h.pin && decide (h.effective < 100) && decide (h.effective * 100 ≤ s.clock.ms - h.periodStart)

/-- R194 and R197: a write can start. -/
def Store.canStart (t : Store) : Bool :=
  t.writing.isNone &&
    match t.clearing with
    | some rest => !rest.isEmpty
    | none => !t.queue.isEmpty

/-- R197: the last default block is written. -/
def Store.clearDone (t : Store) : Bool := t.clearing = some [] && t.writing.isNone

/-- The events that the state as it stands makes due. Loading takes 20 ms and a write 250 ms, the longest that R183
and R194 allow (assumption 7). -/
def State.immediate (s : State) : List Instr :=
  dueIf (s.link.loading && decide (20 ≤ s.clock.ms)) .loadingEnd ++ dueIf s.startupOver .startupEnd
    ++ dueIf s.steadinessDue .steadinessReached ++ dueIf s.settleOver .settleEnd ++ s.bus.exchange.due
    ++ dueIf s.onTimeOver .preheatOnTimeEnd ++ dueIf s.store.canStart .storeWriteStart
    ++ dueIf (s.store.writing.isSome && decide (250 ≤ s.store.writeElapsed)) .storeWriteComplete
    ++ dueIf s.store.clearDone .factoryClearDone

/-! ### Events of the timers -/

/-- R157: the counter stands at the latched limit. -/
def Frost.atLimit (g : Frost) : Bool := g.stage = .cycle && decide (g.latched.limit ≤ g.counter)

/-- R158: the counter's next value opens or closes a window. -/
def Frost.beforeEdge (g : Frost) : Bool :=
  g.stage = .cycle && g.latched.nextEdge g.counter = some (g.counter + 1)

/-- R120: the clean-run timer is one second short of its 600 s. -/
def Fan.cleanRunEnding (x : Fan) : Bool := x.state = .running && x.cleanRun = 599

/-- R119: the rest has one second left. -/
def Fan.restEnding (x : Fan) : Bool := x.state = .faultRest && x.rest = 1

/-- R113: the step timer has one millisecond left. -/
def Fan.stepEnding (x : Fan) : Bool := x.ramping && x.step = some 1

/-- An event on the agenda is still due: no event of the same moment has taken away what makes it so. -/
def State.stillDue (s : State) : Instr → Bool
  | .holdTimerExpiry c => (s.sensing.channel c).hold = 1
  | .demandExpiry h => (s.demand.find h).any fun r => r.remaining = some 1
  | .stationHoldExpiry n => s.bus.stations[n].hold = 1
  | .inhibitTimerExpiry i => (s.humidity.source i).inhibit = 1
  | .restEnd f => (s.drive.fan f).restEnding
  | .cleanRunEnd f => (s.drive.fan f).cleanRunEnding
  | .slewStep f => (s.drive.fan f).stepEnding
  | .cycleWrap => s.frost.atLimit
  | .windowEdge => s.frost.beforeEdge
  | .trimTimerExpiry => s.pressure.trimTimer = some 1
  | .filterTimerExpiry => s.pressure.filterTimer = some 1
  | .frostTimerExpiry => s.pressure.frostTimer = some 1
  | _ => true

/-- The six analog channels. -/
def AnalogChannel.all : List AnalogChannel := [.oa, .sa, .ea, .eha, .outdoorRh, .extractRh]

/-- The timers that a whole second runs out. -/
def State.secondExpiries (s : State) : List Instr :=
  (AnalogChannel.all.filter fun c => (s.sensing.channel c).hold = 1).map Instr.holdTimerExpiry
    ++ (s.demand.live.filter fun r => r.remaining = some 1).map (fun r => Instr.demandExpiry r.handle)
    ++ ((List.finRange 6).filter fun n => s.bus.stations[n].hold = 1).map Instr.stationHoldExpiry
    ++ (SourceId.all.filter fun i => (s.humidity.source i).inhibit = 1).map Instr.inhibitTimerExpiry
    ++ (fanMembers.filter fun f => (s.drive.fan f).restEnding).map Instr.restEnd
    ++ (fanMembers.filter fun f => (s.drive.fan f).cleanRunEnding).map Instr.cleanRunEnd
    ++ dueIf s.frost.atLimit .cycleWrap ++ dueIf (!s.frost.atLimit && s.frost.beforeEdge) .windowEdge

/-- The periodic events of the whole second `n`: poll rounds (R53), frost evaluations (R149), preheat periods (R123),
humidity samples (R69), volume additions (R179) and the operating hours (R192). -/
def periodic (n : Nat) : List Instr :=
  [.pollRoundStart] ++ dueIf (n % 10 = 0) .frostEvaluation ++ dueIf (n % 10 = 0) .preheatPeriodStart
    ++ (if n % 30 = 0 then SourceId.all.map Instr.humiditySample else [])
    ++ dueIf (n % 60 = 0) .volumeAddition ++ dueIf (n % 3600 = 0) .operatingHoursAdvance

/-- The timers that a millisecond runs out. -/
def State.msExpiries (s : State) : List Instr :=
  (fanMembers.filter fun f => (s.drive.fan f).stepEnding).map Instr.slewStep
    ++ dueIf (s.pressure.trimTimer = some 1) .trimTimerExpiry
    ++ dueIf (s.pressure.filterTimer = some 1) .filterTimerExpiry
    ++ dueIf (s.pressure.frostTimer = some 1) .frostTimerExpiry

/-- R53: the poll slots, every 50 ms from second 1. -/
def slotStart (ms : Nat) : List Instr := dueIf (decide (1000 ≤ ms) && decide (ms % 50 = 0)) .pollSlot

/-! ### A millisecond -/

/-- One unit of a running count-down, but for the last. -/
def countDown (n : Nat) : Nat := if 1 < n then n - 1 else n

/-- One millisecond of a fan's step timer. -/
def Fan.tickMs (x : Fan) : Fan := { x with step := x.step.map countDown }

/-- One second of a fan's rest and clean-run timers (R119, R120). -/
def Fan.tickSecond (x : Fan) : Fan :=
  { x with
    rest := if x.state = .faultRest then countDown x.rest else x.rest
    cleanRun := if x.state = .running ∧ x.cleanRun < 599 then x.cleanRun + 1 else x.cleanRun }

/-- One second of a channel's hold timer (R9). -/
def Channel.tickSecond (c : Channel) : Channel := { c with hold := countDown c.hold }

/-- One second of the six hold timers. -/
def Sensing.tickSecond (x : Sensing) : Sensing :=
  { x with
    oa := x.oa.tickSecond, sa := x.sa.tickSecond, ea := x.ea.tickSecond, eha := x.eha.tickSecond
    outdoorRh := x.outdoorRh.tickSecond, extractRh := x.extractRh.tickSecond }

/-- One second of the remaining times (R32). -/
def DemandTable.tickSecond (t : DemandTable) : DemandTable :=
  { t with live := t.live.map fun r => { r with remaining := r.remaining.map countDown } }

/-- One second of the stations' hold timers (R60). -/
def Bus.tickSecond (b : Bus) : Bus :=
  { b with stations := eachStation (fun x => { x with hold := countDown x.hold }) b.stations }

/-- One second of an inhibit timer (R73). -/
def Source.tickSecond (x : Source) : Source := { x with inhibit := countDown x.inhibit }

/-- One second of the inhibit timers. -/
def Humidity.tickSecond (h : Humidity) : Humidity := ⟨h.extract.tickSecond, eachStation (·.tickSecond) h.stations⟩

/-- One second of the stop timer (R150), counted before the evaluation of the same second (assumption 38). -/
def Frost.tickStop (g : Frost) : Frost :=
  if g.stage = .stop ∧ g.reason = .iced then { g with stopTimer := min 3600 (g.stopTimer + 1) } else g

/-- One second of the cycle counter (R157), where the second is neither a wrap nor a window's edge. -/
def Frost.tickCounter (g : Frost) : Frost :=
  if g.stage = .cycle ∧ !g.atLimit ∧ !g.beforeEdge then { g with counter := g.counter + 1 } else g

/-- A whole second in the blocks. The stop timer counts the second before an evaluation of the same second is taken
(DESIGN CHOICE, assumption 38). -/
def State.tickSecond (s : State) : State :=
  { s with
    clock := { s.clock with seconds := s.clock.seconds + 1 }
    sensing := s.sensing.tickSecond, demand := s.demand.tickSecond, bus := s.bus.tickSecond
    humidity := s.humidity.tickSecond
    drive := { s.drive with sup := s.drive.sup.tickSecond, ext := s.drive.ext.tickSecond }
    frost := s.frost.tickStop.tickCounter
    agenda := s.agenda ++ (s.secondExpiries ++ periodic (s.clock.seconds + 1)) }

/-- One millisecond of an exchange. -/
def Exchange.tickMs : Exchange → Exchange
  | .idle => .idle
  | .sending n frame t => .sending n frame (t + 1)
  | .void frame t => .void frame (t + 1)
  | .window n t begun => .window n (t + 1) begun

/-- A millisecond in the blocks. -/
def State.tickMs (s : State) : State :=
  { s with
    clock := { s.clock with ms := s.clock.ms + 1 }
    bus := { s.bus with exchange := s.bus.exchange.tickMs }
    drive := { s.drive with sup := s.drive.sup.tickMs, ext := s.drive.ext.tickMs, elapsed := s.drive.elapsed + 1 }
    pressure :=
      { s.pressure with
        trimTimer := s.pressure.trimTimer.map countDown
        filterTimer := s.pressure.filterTimer.map countDown
        frostTimer := s.pressure.frostTimer.map countDown }
    store := { s.store with writeElapsed := s.store.writeElapsed + (if s.store.writing.isSome then 1 else 0) }
    agenda := s.msExpiries ++ slotStart (s.clock.ms + 1) }

/-- R192: this millisecond completes a whole second that the counter counts. -/
def Clock.wholeSecond (c : Clock) : Bool := decide (c.ms % 1000 = 0) && decide (c.seconds < maxCounter)

/-- One millisecond passes. -/
def State.advance (s : State) : State :=
  if s.tickMs.clock.wholeSecond then s.tickMs.tickSecond else s.tickMs

/-! ### Idling -/

/-- R53: the first slot of a round is served after the round's marks are set. -/
def orderSlots (es : List Instr) : List Instr :=
  if es.contains .pollRoundStart then es.filter (· ≠ .pollSlot) else es

/-- The events due at this moment. -/
def State.due (s : State) : List Instr := s.immediate ++ orderSlots (s.agenda.filter s.stillDue)

/-- R2: of several events due at once, which is taken first is a free value (assumption 4). -/
def State.chosen (s : State) : Nat :=
  if s.due.length = 1 then 0 else Config.tieBreak s.freeCount % s.due.length

/-- An event that has come due joins the queue. -/
def State.raise (s : State) (e : Instr) : State :=
  { s with
    pending := s.pending ++ [e], agenda := s.agenda.erase e
    freeCount := if s.due.length = 1 then s.freeCount else s.freeCount + 1 }

/-- The part while no command waits: held in reset or without the supply nothing happens; otherwise an event that has come
due joins the queue, or, where none has, one millisecond passes. -/
def State.idle (s : State) : State :=
  if s.running then
    match s.due[s.chosen]? with
    | some e => s.raise e
    | none => s.advance
  else s

end Sys2Proof.Machine
end

