-- ==== Sys2Proof/Machine/Pins.lean ====
section
/-! DEFINITION. The part's output pins, computed from the state (pin summary; R51, R105, R126, R191), all low, and ATTN_N
released, while the part is held in reset or without the supply (R195). ATTN is in Flags.lean. -/

namespace Sys2Proof.Machine

/-- R51: SBDE is active while a POLL is on the line. -/
def State.sbde (s : State) : Bool :=
  s.running &&
    match s.bus.exchange with
    | .sending _ _ _ | .void _ _ => true
    | .idle | .window _ _ _ => false

/-- R105: the share of its period, in 0.1 %, for which FNS or FNE is high. -/
def State.fanPin (s : State) (f : FanId) : Nat := if s.running then (s.drive.fan f).commanded else 0

/-- R123: the level of PRE. -/
def State.prePin (s : State) : Bool := s.running && s.drive.preheater.pin

/-- R126: the levels of VSEL1 and VSEL0 at a position of the selector. -/
def Tap.pins : Tap → Bool × Bool
  | .flow => (false, false)
  | .supFilter => (false, true)
  | .extFilter => (true, false)
  | .exch => (true, true)

/-- R126: the levels of VSEL1 and VSEL0. -/
def State.vsel (s : State) : Bool × Bool := if s.running then s.pressure.position.pins else (false, false)

/-- R191: the level of ATTN_N, low while ATTN is asserted; the line is released, and so high, otherwise. -/
def State.attnPin (s : State) : Bool := !s.attn

end Sys2Proof.Machine
end

