-- ==== Sys2Proof/Safety.lean ====
section
/-! DEFINITION. What holds of the part's state in every run, block by block: the ranges and relations that the manual
states of its records. Claims use these predicates as premises and as what every step keeps. -/

namespace Sys2Proof.Machine

/-! ### Demand table -/

/-- R26: every entry is free or live, never both, and stands once. -/
abbrev DemandTable.EntriesOk (t : DemandTable) : Prop :=
  (t.freeList ++ t.live.map DemandRecord.entry).Nodup ∧ t.freeList.length + t.live.length = 24

/-- R27: a remaining time is there exactly when the duration is a number of minutes, and lies within it. -/
def Duration.admits (d : Duration) (remaining : Option Nat) : Bool :=
  match d, remaining with
  | .minutes n, some m => decide (1 ≤ n ∧ n ≤ 1440 ∧ m ≤ n * 60)
  | .absent, none | .indefinite, none => true
  | _, _ => false

/-- R24, R27 and R28: the fields of a live record. -/
abbrev DemandRecord.Ok (r : DemandRecord) : Prop :=
  1 ≤ r.gen ∧ r.gen ≤ 255 ∧ r.level ≤ 100 ∧ r.duration.admits r.remaining = true
    ∧ (r.tag.isSome = true ↔ r.origin = .link) ∧ (r.origin ≠ .link → r.kind = .boost)
    ∧ (r.held = true → r.origin = .humidity) ∧ (r.origin = .humidity → r.duration = .absent)
    ∧ (r.duration = .indefinite → r.origin = .link)

/-- R30: a record's key. -/
def DemandRecord.key (r : DemandRecord) : Origin × Kind × Option Byte := (r.origin, r.kind, r.tag)

/-- R23 to R31: the demand table. -/
abbrev DemandTable.Ok (t : DemandTable) : Prop :=
  t.EntriesOk ∧ (∀ r ∈ t.live, r.Ok ∧ t.gens[r.entry] = r.gen ∧ 1 ≤ r.seq ∧ r.seq ≤ t.counter)
    ∧ (∀ g ∈ t.gens.toList, g ≤ 255) ∧ t.live.Pairwise (fun a b => a.seq < b.seq)
    ∧ (t.live.map DemandRecord.key).Nodup ∧ t.linkCount ≤ 16 ∧ t.counter ≤ maxCounter

/-! ### Parameters, calibration and the store -/

/-- R186: every parameter lies in its range and keeps its pairing bound. -/
abbrev Params.Ok (p : Params) : Prop :=
  ∀ r ∈ paramTable,
    r.lo ≤ p.get r.param ∧ p.get r.param ≤ r.hi ∧ p.paired r.param (p.get r.param) = p.get r.param

/-- R106: duties and flows strictly increase, within 1 to 1000 and 1 to 65535. -/
abbrev CalTable.Ok (t : CalTable) : Prop :=
  t.toList.Pairwise (fun a b => a.duty < b.duty ∧ a.flow < b.flow)
    ∧ ∀ c ∈ t.toList, 1 ≤ c.duty ∧ c.duty ≤ 1000 ∧ 1 ≤ c.flow ∧ c.flow ≤ 65535

/-- R106: both tables. -/
abbrev Calibrations.Ok (c : Calibrations) : Prop := CalTable.Ok c.sup ∧ CalTable.Ok c.ext

/-- R101: a mode that can be stored. -/
def Mode.storable (m : Mode) : Bool := m = .run || m = .standby

/-- R193: an image that a write puts into the memory. -/
def Image.ok : Image → Bool
  | .parameters p => decide p.Ok
  | .calibrations c => decide c.Ok
  | .storedMode m => m.storable
  | .filterRecords _ | .exchangerBaseline _ | .hours _ => true

/-- R193: what the memory and a write in progress hold of parameters, calibrations and the stored mode. -/
abbrev Store.Ok (t : Store) : Prop :=
  (∀ p ∈ t.params, p.Ok) ∧ (∀ c ∈ t.cals, c.Ok) ∧ (∀ m ∈ t.mode, m.storable = true)
    ∧ (∀ x ∈ t.writing, x.ok = true)

/-- R194: the pending queue holds a block at most once. -/
abbrev Store.QueueOk (t : Store) : Prop := t.queue.Nodup

/-- R186, R106, R193: the settings in force and the memory they are loaded from. -/
abbrev State.SettingsOk (s : State) : Prop :=
  s.params.Ok ∧ s.drive.cals.Ok ∧ s.resolver.stored.storable = true ∧ s.store.Ok

/-! ### Resolver -/

/-- R87: the view is the resolution of the inputs as they stand. -/
abbrev State.ViewCurrent (s : State) : Prop := s.resolver.view = resolve s

/-- R97: the extract target lies within the allowance of the supply target. -/
abbrev View.Balanced (v : View) : Prop := v.s1 ≤ v.e1 + v.a ∧ v.e1 ≤ v.s1 + v.a

/-- R100 and R101: start-up ends in a mode other than STARTUP, and outside STARTUP the pending mode is the mode. -/
abbrev Resolver.ModesOk (r : Resolver) : Prop :=
  r.pending ≠ .startup ∧ (r.mode ≠ .startup → r.pending = r.mode)

/-! ### Fan drive -/

/-- R88 and R109: what a recompute may move in the drive from `d` to `e`: requests, ramps, steadiness and the
preheater's effective duty and pin; not a source, a calibration table, the trim, a count or a fan's
availability. -/
abbrev Drive.FollowedBy (d e : Drive) : Prop :=
  e = { d with
        sup := e.sup, ext := e.ext, elapsed := e.elapsed, steady := e.steady
        preheater := { d.preheater with effective := e.preheater.effective, pin := e.preheater.pin } }
    ∧ ∀ f : FanId,
        (e.fan f).source = (d.fan f).source ∧ (e.fan f).attempts = (d.fan f).attempts
          ∧ (e.fan f).rest = (d.fan f).rest ∧ (e.fan f).cleanRun = (d.fan f).cleanRun
          ∧ (e.fan f).state.available = (d.fan f).state.available

/-- R117: a fan has a commanded duty of 1 to 1000 exactly while it is RUNNING, and its counts lie in their
ranges. -/
abbrev Fan.Ok (x : Fan) : Prop :=
  (x.state = .running ↔ 0 < x.commanded) ∧ x.commanded ≤ 1000 ∧ x.requested ≤ 1000 ∧ x.stall < 15
    ∧ x.attempts ≤ 3 ∧ (x.state = .faultRest → x.attempts < 3) ∧ x.rest ≤ 60 ∧ x.cleanRun ≤ 600
    ∧ (x.step.isSome = true ↔ x.state = .running ∧ x.commanded ≠ x.requested)
    ∧ ∀ v ∈ x.source.value, v ≤ 1000

/-- R109: each fan's requested duty is the one formed from its source and surroundings. -/
abbrev State.RequestsCurrent (s : State) : Prop :=
  s.drive.sup.requested = (s.fanRequest .sup).duty ∧ s.drive.ext.requested = (s.fanRequest .ext).duty

/-- R116: the fans are steady only while the three conditions hold. -/
abbrev State.SteadyOk (s : State) : Prop := s.drive.steady = true → s.steadyNow = true

/-- R123: the effective duty is the one formed from the request and the supply fan, and PRE is high only while it is
above 0. -/
abbrev State.PreheatOk (s : State) : Prop :=
  s.drive.preheater.effective = s.effectivePreheat
    ∧ (s.drive.preheater.pin = true → 0 < s.drive.preheater.effective)

/-- R111: the trim lies in its range. -/
abbrev Drive.TrimOk (d : Drive) : Prop := 750 ≤ d.trim ∧ d.trim ≤ 1250

/-! ### Pressure channel -/

/-- R133 and R134: what the judging of the gates may move in the channel from `p` to `q`: the selector, the phase, a
request between WAITING and GRANTED, the grant history, the LINK record's state and the fresh flag; not an entry, a
timer, a result, nor whether a requester has a request. -/
abbrev Pressure.FollowedBy (p q : Pressure) : Prop :=
  q = { p with
        position := q.position, arrival := q.arrival, phase := q.phase, frost := q.frost, trim := q.trim
        filter := q.filter, link := q.link, history := q.history
        record := { p.record with state := q.record.state }, fresh := q.fresh }
    ∧ ∀ r : Requester, (q.request r).isSome = (p.request r).isSome

/-- R128 and R133: a requester's request is GRANTED exactly while its measurement is in flight, and then names the
same tap and slot. -/
abbrev Pressure.SlotOk (p : Pressure) (r : Requester) : Prop :=
  (∀ q ∈ p.request r, q.granted = true →
      ∃ f ∈ p.phase.flight, f.requester = r ∧ f.tap = q.tap ∧ f.slot = q.slot)
    ∧ ∀ f ∈ p.phase.flight, f.requester = r → ∃ q ∈ p.request r, q.granted = true

/-- R139: the LINK record is WAITING or IN_PROGRESS exactly while its request is. -/
abbrev Pressure.RecordOk (p : Pressure) : Prop :=
  (p.record.state = .waiting ↔ ∃ q ∈ p.link, q.granted = false)
    ∧ (p.record.state = .inProgress ↔ ∃ q ∈ p.link, q.granted = true)
    ∧ (p.record.state = .done ↔ p.record.result.isSome = true)

/-- R132: the taps that the requesters ask for. -/
abbrev Pressure.TapsOk (p : Pressure) : Prop :=
  (∀ q ∈ p.frost, q.tap = .exch) ∧ (∀ q ∈ p.trim, q.tap = .flow)
    ∧ ∀ q ∈ p.filter, ∃ i ∈ q.slot, q.tap = i.tap

/-- R128 to R141: the channel. -/
abbrev Pressure.Ok (p : Pressure) : Prop :=
  p.SlotOk .frost ∧ p.SlotOk .trim ∧ p.SlotOk .filter ∧ p.SlotOk .link ∧ p.RecordOk ∧ p.TapsOk
    ∧ p.history.length ≤ 2 ∧ ∀ f ∈ p.phase.flight, f.count < 8 ∧ f.sum ≤ 4999 * f.count

/-- R133: the requester that the next grant goes to: the first one WAITING with an open gate, in the order FROST, TRIM, LINK,
FILTER; after two grants to FROST the first other than FROST, where there is one. -/
abbrev State.GrantGoesTo (s : State) (x : Requester) : Prop :=
  let before : Requester → List Requester
    | .frost => [] | .trim => [.frost] | .link => [.frost, .trim] | .filter => [.frost, .trim, .link]
  s.eligible x = true
    ∧ (s.pressure.history ≠ [.frost, .frost] → ∀ y ∈ before x, s.eligible y = false)
    ∧ (s.pressure.history = [.frost, .frost] →
        (x ≠ .frost → ∀ y ∈ before x, y ≠ .frost → s.eligible y = false)
        ∧ (x = .frost → ∀ y, y ≠ .frost → s.eligible y = false))

/-- R126, R129, R133 and R139: `q` is the FREE channel of `s` after the grant of the request `r` to the requester `x`. The flag of
R144 stands. -/
abbrev State.GrantsTo (s : State) (x : Requester) (r : Request) (q : Pressure) : Prop :=
  let p := s.pressure
  let flight : Flight := ⟨x, r.tap, r.slot, 0, 0, false⟩
  q.request x = some { r with granted := true } ∧ (∀ y, y ≠ x → q.request y = p.request y)
    ∧ q.position = r.tap ∧ q.arrival = (if p.position = r.tap then p.arrival else s.clock.ms)
    ∧ q.phase = (if 4000 ≤ s.clock.ms - q.arrival then .sample flight else .select flight)
    ∧ q.history = (p.history ++ [x]).drop (p.history.length - 1) ∧ q.fresh = p.fresh
    ∧ q.record = (if x = .link then { p.record with state := .inProgress } else p.record)

/-- R133: `q` is the FREE channel of `s` after a grant, where one is to be made. -/
abbrev State.GrantedTo (s : State) (q : Pressure) : Prop :=
  ((∀ x, s.eligible x = false) → q = s.pressure)
    ∧ ∀ x r, s.GrantGoesTo x → s.pressure.request x = some r → s.GrantsTo x r q

/-- R133 and R134: `q` is the channel of `s` after its gates are judged: a measurement whose gate is open goes on, one whose
gate has closed is aborted, its request WAITING again, and a FREE channel makes a grant. -/
abbrev State.ChannelSettledTo (s : State) (q : Pressure) : Prop :=
  let p := s.pressure
  p.FollowedBy q
    ∧ (p.phase = .free → s.GrantedTo q)
    ∧ ∀ f, p.phase.flight = some f →
      (s.gateOpen f.requester = true → q = p)
      ∧ (s.gateOpen f.requester = false →
          State.GrantedTo
            { s with pressure :=
              { p.setRequest f.requester ((p.request f.requester).map fun r => { r with granted := false }) with
                phase := .free } } q)

/-- R116, R123, R134 and R144: `t` is what an event that has changed the drive of `s` leaves of the steadiness timer, of
steadiness, of the preheater and of the pressure channel. -/
abbrev State.DriveSettledTo (s t : State) : Prop :=
  t.drive.elapsed =
      (if t.drive.sup.commanded = s.drive.sup.commanded ∧ t.drive.ext.commanded = s.drive.ext.commanded then s.drive.elapsed
      else 0)
    ∧ t.drive.steady = t.steadyNow
    ∧ t.drive.preheater.effective = t.effectivePreheat
    ∧ t.drive.preheater.pin =
        (if t.drive.preheater.effective = s.drive.preheater.effective then s.drive.preheater.pin
        else decide (s.clock.ms - s.drive.preheater.periodStart < t.drive.preheater.effective * 100))
    ∧ State.ChannelSettledTo
        { t with pressure := { s.pressure with fresh := s.pressure.fresh && (t.drive.steady || !s.drive.steady) } } t.pressure

/-- R87, R88 and R113 to R116: `t` is `s` after a recompute: the view is the resolution of the inputs in `s`, each fan follows
the request formed from it, what hangs on the drive has settled, and nothing else has changed. -/
abbrev State.RecomputedTo (s t : State) : Prop :=
  let u : State := { s with resolver := { s.resolver with view := resolve s } }
  t = { u with drive := t.drive, pressure := t.pressure }
    ∧ s.drive.FollowedBy t.drive ∧ s.pressure.FollowedBy t.pressure ∧ t.RequestsCurrent
    ∧ (∀ f : FanId,
        t.drive.fan f = (s.drive.fan f).follow (u.fanRequest f) (s.firstDuty f) s.params.slewInterval)
    ∧ s.DriveSettledTo t

/-- R116, R123 and R134: `t` is `s` after a change inside the drive that is no input of the resolver: fans, steadiness and
the preheater's effective duty and pin may have moved, with the channel's following; not a table, the trim or the
preheater's source. -/
abbrev State.DriveMovedTo (s t : State) : Prop :=
  t = { s with drive := t.drive, pressure := t.pressure }
    ∧ t.drive =
      { s.drive with
        sup := t.drive.sup, ext := t.drive.ext, elapsed := t.drive.elapsed, steady := t.drive.steady
        preheater :=
          { s.drive.preheater with effective := t.drive.preheater.effective, pin := t.drive.preheater.pin } }
    ∧ s.pressure.FollowedBy t.pressure

/-! ### Frost guard -/

/-- R157 and R158: the counter lies in 1 to the latched limit while the stage is CYCLE and is 0 in every other, and the
windows are those of the counter. -/
abbrev Frost.CycleOk (g : Frost) : Prop :=
  if g.stage = .cycle then 1 ≤ g.counter ∧ g.counter ≤ g.latched.limit ∧ g.windows = g.latched.windowsAt g.counter
  else g.counter = 0 ∧ g.windows = .closed ∧ g.gateResult = none ∧ g.unjudged = false

/-- R148 and R156: the counts and orders lie in their ranges, and a guard that neither limits nor cycles orders
nothing. -/
abbrev Frost.CountsOk (g : Frost) : Prop :=
  g.hold ≤ 180 ∧ g.saturation ≤ 180 ∧ g.ice ≤ 2 ∧ g.stopTimer ≤ 3600 ∧ g.failed ≤ 4
    ∧ g.reduction ≤ 80 ∧ g.preheat ≤ 100 ∧ (g.stage.limits = false → g.reduction = 0 ∧ g.preheat = 0)

/-- R156 and R162: the orders are those that the guard's state forms: in FALLBACK those of the row of OA, elsewhere those of the
margin in LIMIT and CYCLE, with a fitted preheater at 100 in the PREHEAT window, and none in the other stages. -/
abbrev Frost.OrdersFormed (p : Params) (oa : Option Int) (g : Frost) : Prop :=
  let fitted := p.get .preheatFitted = 1
  let window := g.stage = .cycle ∧ g.windows.preheat = true
  let warm := match oa with | none => false | some t => decide (-50 < t)
  let stops := match oa with | none => false | some t => decide (t ≤ p.get .stopOa)
  let row := warm = false ∧ stops = false
  (g.fallback = true →
    g.reduction = (if row ∧ ¬fitted then roundDiv (p.nat .frostReduceMax) 2 else 0)
      ∧ g.preheat = (if fitted ∧ window then 100 else if row ∧ fitted then 50 else 0))
  ∧ (g.fallback = false → g.stage ≠ .limit → g.stage ≠ .cycle → g.reduction = 0 ∧ g.preheat = 0)
  ∧ ∀ m, g.fallback = false → g.stage = .limit ∨ g.stage = .cycle → g.margin = some m →
    let short := p.get .frostLimit - m
    g.reduction = (if fitted then 0 else
        (min (p.get .frostReduceMax) (max 0 (symRound (p.get .frostReduceGain * short) 10))).toNat)
      ∧ g.preheat = (if ¬fitted then 0 else if window then 100
        else (min 100 (max 0 (symRound (p.get .preheatGain * short) 10))).toNat)

/-- R87, R138, R155 and R158: `t` is what the guard's move from its state in `s` to `g` leaves. A change of stage sets FROST and
starts the FROST timer at the period of the stage, or stops it; the GATE window's opening files the FROST request; what the
resolver reads of the guard recomputes where it has changed; and the channel settles. -/
abbrev State.FrostHandedTo (s : State) (g : Frost) (gateOpens : Bool) (t : State) : Prop :=
  let staged := g.stage ≠ s.frost.stage
  let period : Option Nat :=
    match g.stage with
    | .clear => if g.baseline.pn0 = none then some (s.params.nat .filterPeriod * 60000) else none
    | .watch => some 60000
    | .limit => some 20000
    | .cycle | .stop => none
  let u : State :=
    { s with
      frost := g, notices := if staged then s.notices.set .frost else s.notices
      pressure :=
        { s.pressure with
          frostTimer := if staged then period else s.pressure.frostTimer
          frost := if gateOpens = true ∧ s.pressure.frost = none then some ⟨.exch, none, false⟩ else s.pressure.frost } }
  let moves := staged ∨ g.reduction ≠ s.frost.reduction ∨ g.preheat ≠ s.frost.preheat
    ∨ g.windows.reduce ≠ s.frost.windows.reduce
  (moves → u.RecomputedTo t) ∧ (¬moves → t = { u with pressure := t.pressure } ∧ u.ChannelSettledTo t.pressure)

/-- R164: in STARTUP and STANDBY the stage is CLEAR. -/
abbrev State.StandDownOk (s : State) : Prop :=
  s.resolver.mode.stopped = true → s.frost.stage = .clear ∧ s.frost.fallback = false ∧ s.pressure.link = none

/-! ### Filter table -/

/-- R176: `q` is the record `r` after an evaluation, made at an OVER result where `atOver` says so. -/
def FilterRecord.AdvancedTo (p : Params) (hours : Nat) (atOver : Bool) (r q : FilterRecord) : Prop :=
  let age := hours - r.fittedAt
  let reached (k : Nat) := ∃ x ∈ r.latestRatio, k ≤ x
  let over0 := reached (p.nat .filterOverdueRatio)
  let over1 := atOver = true ∧ (r.state = .service ∨ r.state = .due)
  let over2 := r.interval + p.nat .overdueGrace ≤ age
  let due0 := r.state = .service ∧ reached (p.nat .filterDueRatio)
  let due2 := r.interval ≤ age
  let due3 := 0 < p.nat .volumeLimit ∧ p.nat .volumeLimit * 1000 ≤ r.volume
  let causes (c0 c1 c2 c3 : Prop) :=
    (q.causes.getLsbD 0 = true ↔ c0) ∧ (q.causes.getLsbD 1 = true ↔ c1) ∧ (q.causes.getLsbD 2 = true ↔ c2)
      ∧ (q.causes.getLsbD 3 = true ↔ c3)
  q = { r with state := q.state, causes := q.causes }
  ∧ (r.state ≠ .overdue → over0 ∨ over1 ∨ over2 → q.state = .overdue ∧ causes over0 over1 over2 False)
  ∧ (r.state = .learning ∨ r.state = .service → ¬(over0 ∨ over1 ∨ over2) → due0 ∨ due2 ∨ due3 →
      q.state = .due ∧ causes due0 False due2 due3)
  ∧ (r.state = .overdue ∨ ¬(over0 ∨ over1 ∨ over2) ∧ (r.state = .due ∨ ¬(due0 ∨ due2 ∨ due3)) → q = r)

/-! ### Humidity rule -/

/-- R68: what is there, and what is not, in each state of a source. -/
abbrev Source.Ok (x : Source) : Prop :=
  (x.level.isSome = true ↔ x.state = .rising) ∧ (x.noDrying = true → x.state = .rising)
    ∧ (x.state ≠ .disarmed → x.baseline.isSome = true ∧ x.last.isSome = true)
    ∧ (∀ l ∈ x.level, 20 ≤ l ∧ l ≤ 100) ∧ (∀ b ∈ x.baseline, 0 ≤ b ∧ b ≤ 1000) ∧ x.settle < 10

/-- R82: the HUMIDITY record is live exactly while the contributor set has members, with the level and the state that
the set gives. -/
abbrev State.RecordAligned (s : State) : Prop :=
  s.demand.humidityRecord.map (fun r => (r.level, r.held)) = s.humidity.wanted

/-- R81 and R82: `t` is `u` after the HUMIDITY record has followed the contributors of `u`, the sources that are RISING. With
none of them no record is live; else its level is the largest among those whose NO_DRYING is clear, and it is ACTIVE; where all
have it set, the largest of all, and it is HELD. -/
abbrev State.HumidityAlignedTo (u t : State) : Prop :=
  let rising (j : SourceId) := (u.humidity.source j).state = .rising
  let dull (j : SourceId) := (u.humidity.source j).noDrying = true
  let largest (of : SourceId → Prop) (l : Nat) :=
    (∃ j, of j ∧ (u.humidity.source j).level.getD 0 = l) ∧ ∀ j, of j → (u.humidity.source j).level.getD 0 ≤ l
  let asks (l : Nat) (held : Bool) :=
    (held = false ∧ largest (fun j => rising j ∧ ¬dull j) l)
      ∨ (held = true ∧ (∀ j, rising j → dull j) ∧ largest rising l)
  ((∀ j, ¬rising j) → (∀ r ∈ u.demand.live, r.origin ≠ .humidity) → t = u)
  ∧ ((∀ j, ¬rising j) → ∀ pre post r, u.demand.live = pre ++ r :: post → r.origin = .humidity →
      State.RecomputedTo
        { u with demand := { u.demand with live := pre ++ post, freeList := u.demand.freeList ++ [r.entry] } } t)
  ∧ ∀ l held, asks l held →
    ((∀ r ∈ u.demand.live, r.origin ≠ .humidity) →
      State.RecomputedTo
        { u with demand := u.demand.add ⟨.humidity, .boost, l, none, .absent, held⟩ u.clock.seconds } t)
    ∧ ∀ pre post r, u.demand.live = pre ++ r :: post → r.origin = .humidity →
      (r.level = l → r.held = held → t = u)
      ∧ (r.level ≠ l ∨ r.held ≠ held →
        State.RecomputedTo
          { u with demand := { u.demand with live := pre ++ { r with level := l, held := held } :: post } } t)

/-! ### Stations -/

/-- Section 3.3: a station's record. The hold timer runs exactly while a reading is HELD, and readings are HELD in LOST
alone. -/
abbrev Station.Ok (x : Station) : Prop :=
  x.misses ≤ 255 ∧ x.hold ≤ 600 ∧ (x.state = .online → x.misses < 3)
    ∧ (x.state ≠ .lost → x.hold = 0 ∧ x.temperature.status ≠ .held ∧ x.humidity.status ≠ .held)
    ∧ (x.state ≠ .online → x.presses = none)
    ∧ (x.hold = 0 → x.temperature.status ≠ .held ∧ x.humidity.status ≠ .held)

/-- R51, R53 and R58: the bus. An exchange is in flight with a station that is served, and a station that is not
served has no mark. -/
abbrev Bus.Ok (b : Bus) : Prop :=
  (∀ n : StationId, b.stations[n].Ok ∧ (b.stations[n].state = .unconfigured → b.stations[n].marked = false))
    ∧ match b.exchange with
      | .sending n _ _ | .window n _ _ => b.stations[n].state ≠ .unconfigured
      | .idle | .void _ _ => True

/-! ### Sensing -/

/-- R7 to R10: a channel has a value in VALID and HELD, its last valid value, and its hold timer runs in HELD. -/
abbrev Channel.Ok (c : Channel) : Prop :=
  c.hold ≤ 60 ∧ (0 < c.hold ↔ c.status = .held)
    ∧ (c.usable.isSome = true ↔ c.status = .valid ∨ c.status = .held)
    ∧ (c.status = .valid ∨ c.status = .held → c.value = c.lastValid)
    ∧ (c.status = .pending ∨ c.status = .invalid → c.value = none)

/-! ### Messages and resets -/

/-- R198: the number that the bytes of a response's field spell. -/
def fieldAt (data : List Byte) (place width : Nat) : Nat := natOfBytes ((data.drop place).take width)

/-- R194: what the store may be after a write in progress is cut short: its block failing its check, old or new; without
a write, the store as it stands. -/
def Store.afterCut (t : Store) : List Store :=
  match t.writing with
  | some x =>
    [{ t.spoil x with writing := none, writeElapsed := 0 }, { t with writing := none, writeElapsed := 0 },
      { t.put x with writing := none, writeElapsed := 0 }]
  | none => [t]

/-- R195: `t` is the part after a reset of `s` with the given cause, with the memory `m` to load from (R193) and the given
levels at the straps. A block that the memory does not hold good is defaulted, and its bit of the defaulted set says so; a
fitted-at value above the loaded hours is lowered to them, which makes the filter block PENDING (R180), and every other block is
CLEAN (R194). The queue of waiting commands stands. -/
abbrev State.ResetTo (s : State) (m : Store) (cause : ResetCause) (straps : BitVec 2) (t : State) : Prop :=
  let kept : Filters := m.filters.getD ⟨none, none⟩
  let loaded (r : FilterRecord) : FilterRecord := { r with fittedAt := min r.fittedAt t.hours, lastValid := none }
  let corrects := ∃ i r, kept.slot i = some r ∧ t.hours < r.fittedAt
  let defaulted (i : Nat) := t.notices.defaulted.getLsbD i = true
  (t.pending = s.pending ∧ t.agenda = [] ∧ t.life = .running ∧ t.clock = ⟨0, 0⟩
    ∧ t.link = ⟨⟨.none, []⟩, straps, true⟩)
  ∧ (t.notices.cause = cause
    ∧ (t.notices.flags =
      if t.notices.defaulted = 0 then Notice.reset.flag else Notice.reset.flag ||| Notice.store.flag)
    ∧ (defaulted 0 ↔ m.params = none) ∧ (defaulted 1 ↔ m.cals = none) ∧ (defaulted 2 ↔ m.filters = none)
    ∧ (defaulted 3 ↔ m.baseline = none) ∧ (defaulted 4 ↔ m.hours = none) ∧ (defaulted 5 ↔ m.mode = none))
  ∧ (t.params = m.params.getD .default ∧ t.drive.cals = m.cals.getD .default ∧ t.hours = m.hours.getD 0
    ∧ t.filters = ⟨kept.supply.map loaded, kept.extract.map loaded⟩
    ∧ t.frost.baseline = m.baseline.getD ⟨0, 0, none⟩
    ∧ t.resolver.stored = m.mode.getD .standby)
  ∧ (t.resolver.mode = .startup ∧ t.resolver.pending = t.resolver.stored
    ∧ t.resolver.view = ⟨0, .zero, 0, 0, 0, t.params.nat .imbalanceLimit, 0, 0, 0, 0⟩)
  ∧ (t.demand.live = [] ∧ t.demand.counter = 0 ∧ t.demand.freeList = List.finRange 24
    ∧ ∀ g ∈ t.demand.gens.toList, g = 0)
  ∧ ((∀ n : StationId, t.bus.stations[n] =
        { state := if t.params.stations.getLsbD n then .seeking else .unconfigured, kind := none, misses := 0
          presses := none, lastGood := none, lastRound := none, temperature := ⟨.invalid, none⟩
          humidity := ⟨.invalid, none⟩, hold := 0, indicator := .off, marked := false })
    ∧ t.bus.exchange = .idle)
  ∧ ((∀ c : AnalogChannel, t.sensing.channel c = ⟨.pending, none, 0, none⟩)
    ∧ (∀ c : Contact, t.sensing.contact c = ⟨false, 0⟩) ∧ ∀ f : FanId, t.sensing.tach f = ⟨none, false, 0, 0⟩)
  ∧ (∀ i : SourceId, t.humidity.source i =
      { state := .disarmed, baseline := none, arm := 0, last := none, deviation := none, inhibit := 0, run := 0
        settle := 0, level := none, noDrying := false })
  ∧ ((∀ f : FanId, t.drive.fan f =
        { state := .idle, source := .auto, requested := 0, commanded := 0, step := none, stall := 0, rest := 0
          attempts := 0, cleanRun := 0 }) ∧ t.drive.trim = 1000 ∧ t.drive.elapsed = 0
    ∧ t.drive.steady = false ∧ t.drive.preheater = ⟨.auto, 0, 0, false⟩)
  ∧ (t.pressure.phase = .free ∧ (∀ r : Requester, t.pressure.request r = none) ∧ t.pressure.position = .flow
    ∧ t.pressure.record = ⟨.none, none, none, none⟩ ∧ (∀ x : Tap, t.pressure.entry x = none)
    ∧ t.pressure.history = [] ∧ t.pressure.arrival = 0 ∧ t.pressure.fresh = false ∧ t.pressure.lastSlot = none
    ∧ t.pressure.trimTimer = some (t.params.nat .flowPeriod * 1000)
    ∧ t.pressure.filterTimer = some (t.params.nat .filterPeriod * 60000)
    ∧ t.pressure.frostTimer =
      if t.frost.baseline.pn0 = none then some (t.params.nat .filterPeriod * 60000) else none)
  ∧ t.frost =
    { stage := .clear, reason := .none, fallback := false, tf := none, margin := none, hold := 0, saturation := 0, ice := 0
      stopTimer := 0, reduction := 0, preheat := 0, priorReduction := 0, priorPreheat := 0, counter := 0
      latched :=
        ⟨t.params.nat .cycleLimit, t.params.nat .preheatStart, t.params.nat .preheatEnd, t.params.nat .reduceStart,
          t.params.nat .reduceEnd, t.params.nat .gateStart, t.params.nat .gateEnd⟩
      windows := .closed, gateResult := none, failed := 0, unjudged := false, lastRatio := none
      baseline := t.frost.baseline }
  ∧ (t.store = { m with queue := t.store.queue, writing := none, writeElapsed := 0, clearing := none }
    ∧ (corrects → t.store.queue = [.filterRecords]) ∧ (¬corrects → t.store.queue = []))

end Sys2Proof.Machine
end

