-- ==== Sys2Proof/Certificates/Slice0/Obligations.lean ====
section
/-! DEFINITION. The statements about the model. Each docstring names the rules of spec/ that its statement is taken from;
the next states are the whole state, so that what a statement does not name has not changed. -/

open Sys2Proof Sys2Proof.Machine

/-! ### The queue and the ways in -/

/-- The command at the front of the queue is executed on the state with the rest of the queue. -/
def Obligations.StepRunsTheFrontCommand : Prop :=
  ∀ (c : Instr) (rest : List Instr) (s : State),
    s.pending = c :: rest → step s = exec c { s with pending := rest }

/-- The model's choice (assumption 2): with an empty queue a part that does not run stays as it is. In one that runs, an event
that has come due joins the queue; where none has, one millisecond passes. Due are: the end of loading at 20 ms and of a block's
write at 250 ms (assumption 7), start-up's end (R100), steadiness (R116), the settle's end (R129), a poll's end after 4 ms
(assumption 8), a reply window's end at 15 ms with no reply begun and at 30 ms (R51), the preheater's on-time (R123), a block's
write and a clearing's end (R194, R197), and what waits on the agenda. A millisecond counts the times that are kept in
milliseconds, and a whole second those that are kept in seconds, each running count-down down to its last unit (assumption 10);
and it puts on the agenda the timers that run out with it, the poll slots each 50 ms from second 1 and, at whole seconds, poll
rounds (each second), frost evaluations and preheat periods (10 s), humidity samples (30 s), volume additions (60 s) and the
operating hours (3600 s). Samples, conversions and replies come from the sender (assumption 6). -/
def Obligations.AnEmptyQueueLetsTimePass : Prop :=
  ∀ s : State, s.pending = [] →
    (s.running = false → step s = .next s)
    ∧ (s.running = true → s.due ≠ [] →
        ∃ e ∈ s.due, step s =
          .next { s with
            pending := [e], agenda := s.agenda.erase e
            freeCount := if s.due.length = 1 then s.freeCount else s.freeCount + 1 })
    ∧ (∀ e : Instr, e ∈ s.due ↔
        let w := s.drive.preheater
        let begun (c : AnalogChannel) := (s.sensing.channel c).status ≠ .pending
        e = .loadingEnd ∧ s.link.loading = true ∧ 20 ≤ s.clock.ms
        ∨ e = .startupEnd ∧ s.resolver.mode = .startup
            ∧ (begun .oa ∧ begun .sa ∧ begun .ea ∧ begun .eha ∨ 3 ≤ s.clock.seconds)
        ∨ e = .steadinessReached ∧ s.steadyNow = true ∧ s.drive.steady = false
        ∨ e = .settleEnd ∧ (∃ f, s.pressure.phase = .select f) ∧ 4000 ≤ s.clock.ms - s.pressure.arrival
        ∨ e = .pollEnd ∧ (∃ t, 4 ≤ t
            ∧ ((∃ n x, s.bus.exchange = .sending n x t) ∨ ∃ x, s.bus.exchange = .void x t))
        ∨ e = .replyTimeout ∧ (∃ n t b, s.bus.exchange = .window n t b ∧ (30 ≤ t ∨ 15 ≤ t ∧ b = false))
        ∨ e = .preheatOnTimeEnd ∧ w.pin = true ∧ w.effective < 100 ∧ w.effective * 100 ≤ s.clock.ms - w.periodStart
        ∨ e = .storeWriteStart ∧ s.store.writing = none
            ∧ ((∃ b rest, s.store.clearing = some (b :: rest)) ∨ s.store.clearing = none ∧ s.store.queue ≠ [])
        ∨ e = .storeWriteComplete ∧ s.store.writing ≠ none ∧ 250 ≤ s.store.writeElapsed
        ∨ e = .factoryClearDone ∧ s.store.clearing = some [] ∧ s.store.writing = none
        ∨ e ∈ s.agenda ∧ s.stillDue e = true ∧ (e = .pollSlot → .pollRoundStart ∉ s.agenda))
    ∧ (s.running = true → s.due = [] →
        let now := s.clock.seconds + 1
        let second := (s.clock.ms + 1) % 1000 = 0 ∧ s.clock.seconds < 4294967295
        let down (n : Nat) : Nat := if 1 < n then n - 1 else n
        let aged (n : Nat) : Nat := if second then down n else n
        let fan (x : Fan) : Fan :=
          { x with
            step := x.step.map down, rest := if x.state = .faultRest then aged x.rest else x.rest
            cleanRun := if second ∧ x.state = .running ∧ x.cleanRun < 599 then x.cleanRun + 1 else x.cleanRun }
        let g := s.frost
        let edge := g.stage = .cycle ∧ g.counter < g.latched.limit
          ∧ g.latched.windowsAt (g.counter + 1) ≠ g.latched.windowsAt g.counter
        ∃ t, step s = .next t
          ∧ t = { s with
              agenda := t.agenda, sensing := t.sensing, demand := t.demand, bus := t.bus
              humidity := t.humidity, frost := t.frost
              clock := ⟨s.clock.ms + 1, if second then now else s.clock.seconds⟩
              drive := { s.drive with
                sup := fan s.drive.sup, ext := fan s.drive.ext, elapsed := s.drive.elapsed + 1 }
              pressure := { s.pressure with
                trimTimer := s.pressure.trimTimer.map down, filterTimer := s.pressure.filterTimer.map down
                frostTimer := s.pressure.frostTimer.map down }
              store := { s.store with
                writeElapsed := s.store.writeElapsed + if s.store.writing = none then 0 else 1 } }
          ∧ (∀ c : AnalogChannel,
              t.sensing.channel c = { s.sensing.channel c with hold := aged (s.sensing.channel c).hold })
          ∧ (∀ c : Contact, t.sensing.contact c = s.sensing.contact c)
          ∧ (∀ f : FanId, t.sensing.tach f = s.sensing.tach f)
          ∧ t.demand = { s.demand with live := s.demand.live.map fun r => { r with remaining := r.remaining.map aged } }
          ∧ (∀ n : StationId, t.bus.stations[n] = { s.bus.stations[n] with hold := aged s.bus.stations[n].hold })
          ∧ (∀ i : SourceId,
              t.humidity.source i = { s.humidity.source i with inhibit := aged (s.humidity.source i).inhibit })
          ∧ t.frost = { g with
              stopTimer := if second ∧ g.stage = .stop ∧ g.reason = .iced then min 3600 (g.stopTimer + 1)
                else g.stopTimer
              counter := if second ∧ g.stage = .cycle ∧ g.counter < g.latched.limit ∧ ¬edge then g.counter + 1
                else g.counter }
          ∧ (s.bus.exchange = .idle → t.bus.exchange = .idle)
          ∧ (∀ n x e, s.bus.exchange = .sending n x e → t.bus.exchange = .sending n x (e + 1))
          ∧ (∀ x e, s.bus.exchange = .void x e → t.bus.exchange = .void x (e + 1))
          ∧ (∀ n e b, s.bus.exchange = .window n e b → t.bus.exchange = .window n (e + 1) b)
          ∧ ∀ e : Instr, e ∈ t.agenda ↔
            (∃ f, e = .slewStep f ∧ (s.drive.fan f).state = .running ∧ (s.drive.fan f).step = some 1
                ∧ (s.drive.fan f).commanded ≠ (s.drive.fan f).requested)
            ∨ e = .trimTimerExpiry ∧ s.pressure.trimTimer = some 1
            ∨ e = .filterTimerExpiry ∧ s.pressure.filterTimer = some 1
            ∨ e = .frostTimerExpiry ∧ s.pressure.frostTimer = some 1
            ∨ e = .pollSlot ∧ 1000 ≤ s.clock.ms + 1 ∧ (s.clock.ms + 1) % 50 = 0
            ∨ second ∧
              ((∃ c, e = .holdTimerExpiry c ∧ (s.sensing.channel c).hold = 1)
              ∨ (∃ r ∈ s.demand.live, e = .demandExpiry r.handle ∧ r.remaining = some 1)
              ∨ (∃ n : StationId, e = .stationHoldExpiry n ∧ s.bus.stations[n].hold = 1)
              ∨ (∃ i, e = .inhibitTimerExpiry i ∧ (s.humidity.source i).inhibit = 1)
              ∨ (∃ f, e = .restEnd f ∧ (s.drive.fan f).state = .faultRest ∧ (s.drive.fan f).rest = 1)
              ∨ (∃ f, e = .cleanRunEnd f ∧ (s.drive.fan f).state = .running ∧ (s.drive.fan f).cleanRun = 599)
              ∨ e = .cycleWrap ∧ g.stage = .cycle ∧ g.latched.limit ≤ g.counter
              ∨ e = .windowEdge ∧ edge ∨ e = .pollRoundStart
              ∨ (e = .frostEvaluation ∨ e = .preheatPeriodStart) ∧ now % 10 = 0
              ∨ (∃ i, e = .humiditySample i) ∧ now % 30 = 0 ∨ e = .volumeAddition ∧ now % 60 = 0
              ∨ e = .operatingHoursAdvance ∧ now % 3600 = 0))

/-- The model's choice, read from R195, R197 and R183 (assumptions 16 and 26): a part that is held in reset or without the supply
has stopped, and every row but those that end a reset or change the supply, POWER_RESET, PIN_RESET and POWER_LOSS, leaves it as
it is; a command of the host, and any write, that comes while the part does not acknowledge its address changes nothing. -/
def Obligations.ASilentPartIsLeftAsItIs : Prop :=
  ∀ s : State,
    (s.running = false → ∀ c : Instr, (∀ straps, c ≠ .powerReset straps) → (∀ released, c ≠ .pinReset released) →
      c ≠ .powerLoss → exec c s = .next s)
    ∧ (s.answering = false →
      (∀ (c : Instr) (bytes : List Byte), encodeWrite c = some bytes → exec c s = .next s)
        ∧ ∀ bytes : List Byte, exec (.badCommand bytes) s = .next s)

/-! ### Messages and frames -/

/-- R200: a write is taken as a command exactly when its bytes are the ones that the formats give that command. -/
def Obligations.WritesDecodeAsEncoded : Prop :=
  ∀ (c : Instr) (bytes : List Byte), decodeWrite bytes = .command c ↔ encodeWrite c = some bytes

/-- R184: the bytes of a command's write execute that command (step 5). A write without bytes is no command and leaves
the response; a write of one byte, of a length byte above 32 or of another count of field bytes is answered
BAD_LENGTH; then a code that names no command is answered BAD_COMMAND; then a length that is not the command's is
answered BAD_LENGTH. A refusal has length 0 and changes the response alone. -/
def Obligations.WritesAreExecutedOrRefused : Prop :=
  (∀ (c : Instr) (bytes : List Byte), encodeWrite c = some bytes →
    ∀ s : State, exec (.badCommand bytes) s = exec c s)
  ∧ ∀ s : State, s.answering = true →
    exec (.badCommand []) s = .next s
    ∧ (∀ b : Byte, exec (.badCommand [b]) s = .next (s.respond .badLength []))
    ∧ (∀ (code n : Byte) (fields : List Byte), 32 < n.toNat ∨ fields.length ≠ n.toNat →
        exec (.badCommand (code :: n :: fields)) s = .next (s.respond .badLength []))
    ∧ (∀ (code n : Byte) (fields : List Byte), n.toNat ≤ 32 → fields.length = n.toNat → fieldLength code = none →
        exec (.badCommand (code :: n :: fields)) s = .next (s.respond .badCommand []))
    ∧ (∀ (code n : Byte) (fields : List Byte) (len : Nat), n.toNat ≤ 32 → fields.length = n.toNat →
        fieldLength code = some len → n.toNat ≠ len →
        exec (.badCommand (code :: n :: fields)) s = .next (s.respond .badLength []))

/-- R183 and R185: the part acknowledges its address, 0x4C plus the two straps, while it runs, has loaded its store and has no
FACTORY_CLEAR under way, and no other; a read to an address it does not acknowledge returns nothing. A read of `n` bytes returns
`n` bytes of the buffer: the status, the length, the response bytes, and then 0x00. -/
def Obligations.ReadsReturnTheBuffer : Prop :=
  ∀ (s : State) (address : BitVec 7) (n : Nat),
    (s.acknowledges address = true ↔
      s.life = .running ∧ s.link.loading = false ∧ s.store.clearing = none
        ∧ address.toNat = 0x4C + s.link.straps.toNat)
    ∧ (s.answering = true ↔ s.acknowledges (0x4C + s.link.straps.setWidth 7) = true)
    ∧ (s.acknowledges address = false → s.hostRead address n = none)
    ∧ (s.acknowledges address = true → s.link.response.data.length ≤ 32 →
      ∃ bytes, s.hostRead address n = some bytes ∧ bytes.length = n ∧ ∀ i < n,
        (i = 0 → bytes[i]? = some s.link.response.status.code)
        ∧ (i = 1 → bytes[i]? = some (BitVec.ofNat 8 s.link.response.data.length))
        ∧ (2 ≤ i → bytes[i]? = some (s.link.response.data.getD (i - 2) 0)))

/-- R203, with R51 and R52: a frame is taken as a report exactly when it is a REPORT of the expected station with the
length 8, the CRC of its bytes and a station kind, and then its payload says what the report says. The worked POLL to
station 1, indicator OFF, resolved level 50, is the manual's. -/
def Obligations.ReportFramesDecode : Prop :=
  (∀ (address : Byte) (chars : List Byte) (r : Report),
    decodeReport address chars = some r ↔
      ∃ k f t0 t1 h0 h1 : Byte,
        chars = 0x7E :: ([address, 0x81, 8, k, f, t0, t1, h0, h1, r.short, r.long]
          ++ [crc [address, 0x81, 8, k, f, t0, t1, h0, h1, r.short, r.long]])
        ∧ (k = 0 ∧ r.kind = .room ∨ k = 1 ∧ r.kind = .wet)
        ∧ r.fault = f.getLsbD 0
        ∧ r.temperature = (if halfOf t0 t1 = 0x7FFF then none else some (halfOf t0 t1).toInt)
        ∧ r.humidity = (if halfOf h0 h1 = 0xFFFF then none else some ((halfOf h0 h1).toNat : Int)))
  ∧ crc [0x01, 0x01, 0x02, 0x00, 0x32] = 0xF0
  ∧ pollFrame 0x01 0x00 0x32 = [0x7E, 0x01, 0x01, 0x02, 0x00, 0x32, 0xF0]

/-! ### Reads of the host -/

/-- R200 and R202, with R198's codes: a read answers OK with its report, given here field by field, and changes the response
alone (R21, R40, R41, R66, R85, R104, R108, R125, R141, R142, R169, R173, R188; READ_NOTICES has a statement of its own). A
temperature that is absent is 0x7FFF, a quantity all ones, a handle 0, and a field whose absence a packed byte reports 0. That a
FLOW entry's Pn is 0xFFFF in READ_TAP and 0 in READ_MEASURE is the model's reading (assumption 17), a single grant in the newer
bits (assumption 42) and the absent codes of a station's INVALID readings (assumption 49) its choices, and a flow above 65535 a free
value (assumption 36). A read that names no station, tap, slot, fan
or parameter is refused with BAD_VALUE and one whose handle names no record with NO_SUCH, each with length 0. -/
def Obligations.ReadsAnswerTheirReports : Prop :=
  ∀ s : State, s.answering = true →
    let temp (v : Option Int) : List Byte := match v with | some t => bytesOfInt 2 t | none => bytesOf 2 0x7FFF
    let num (k : Nat) (v : Option Nat) : List Byte := bytesOf k (v.getD (256 ^ k - 1))
    let flow (q : Nat) : List Byte := bytesOf 2 (if q < 65536 then q else Config.overflowField q)
    let bit (i : Nat) (b : Bool) : Nat := if b then 2 ^ i else 0
    let status (x : ChannelStatus) : Nat := match x with | .pending => 0 | .valid => 1 | .held => 2 | .invalid => 3
    let ratio (x : Option RatioResult) : List Byte :=
      match x with | none => bytesOf 2 0xFFFF | some .overRange => bytesOf 2 0xFFFE | some (.ratio n) => bytesOf 2 n
    let tap (x : Tap) : Nat := match x with | .flow => 0 | .supFilter => 1 | .extFilter => 2 | .exch => 3
    let who (x : Requester) : Nat := match x with | .frost => 0 | .trim => 1 | .filter => 2 | .link => 3
    let outcome (x : MeasureOutcome) : Nat := match x with | .valid => 0 | .overRange => 1 | .lowFlow => 2
    let flags (r : Result) : Nat :=
      match r.body with
      | .orifice _ => bit 0 r.overRange
      | .element o _ e _ => bit 0 r.overRange + 2 * outcome o + bit 3 e
    let values (r : Result) (noPn : Nat) : List Byte :=
      match r.body with
      | .orifice q => bytesOf 2 r.p ++ flow q ++ bytesOf 2 noPn
      | .element _ q _ pn => bytesOf 2 r.p ++ flow q ++ bytesOf 2 (pn.getD 0)
    let ofOrigin (o : Origin) : Half :=
      match s.demand.live.find? (fun r => r.origin = o && r.kind = .boost) with | some r => r.handle | none => 0
    let answers (c : Instr) (n : Nat) (data : List Byte) : Prop :=
      exec c s = .next (s.respond .ok data) ∧ data.length = n
    (let v := s.resolver.view
      let mode (m : Mode) : Byte := match m with | .startup => 0 | .run => 1 | .standby => 2 | .commission => 3
      let source : Byte :=
        match v.source with | .zero => 0 | .hold => 1 | .base => 2 | .setback => 3 | .boost => 4
      answers .readResolution 20
        ([mode s.resolver.mode, mode s.resolver.pending, mode s.resolver.stored] ++ bytesOf 1 v.d ++ [source]
          ++ bytesOfHalf v.handle ++ [v.s0, v.e0, v.s1, v.e1, v.a].flatMap (bytesOf 2) ++ bytesOf 1 v.preheat
          ++ bytesOf 2 v.reasons.toNat))
    ∧ (let c := s.sensing.channel
      let used (x : AnalogChannel) : Option Int :=
        if (c x).status = .valid ∨ (c x).status = .held then (c x).value else none
      let content (x y : AnalogChannel) : Option Nat :=
        match used x, used y with | some t, some h => some (moisture t h) | _, _ => none
      answers .readSensors 31
        ([AnalogChannel.oa, .sa, .ea, .eha].flatMap (fun x => bytesOf 1 (status (c x).status) ++ temp (used x))
          ++ [AnalogChannel.outdoorRh, .extractRh].flatMap
            (fun x => bytesOf 1 (status (c x).status) ++ num 2 ((used x).map Int.toNat))
          ++ [AnalogChannel.oa, .sa, .ea, .eha, .outdoorRh, .extractRh].flatMap
            (fun x => bytesOf 1 (if (c x).status = .held then (c x).hold else 0))
          ++ bytesOf 1 (bit 0 (s.sensing.contact .cooker).closed + bit 1 (s.sensing.contact .night).closed)
          ++ num 2 (content .oa .outdoorRh) ++ num 2 (content .ea .extractRh)
          ++ temp ((content .ea .extractRh).map dewPoint)))
    ∧ (∀ (a : Byte) (n : StationId), a.toNat = n.val + 1 →
      let x := s.bus.stations[n]
      let state := match x.state with | .unconfigured => 0 | .seeking => 1 | .online => 2 | .lost => 3
      let lamp := match x.indicator with | .off => 0 | .steady => 1 | .slowBlink => 2 | .fastBlink => 3
      answers (.readStation a) 18
        (bytesOf 1 state ++ num 1 (x.kind.map fun k => match k with | .room => 0 | .wet => 1) ++ bytesOf 1 x.misses
          ++ bytesOf 1 (status x.temperature.status + 4 * status x.humidity.status + bit 4 x.presses.isSome + 32 * lamp)
          ++ num 4 (x.lastGood.map fun t => s.clock.seconds - t) ++ temp x.temperature.value
          ++ num 2 (x.humidity.value.map Int.toNat) ++ bytesOf 2 x.hold
          ++ (match x.presses with | some (short, long) => [short, long] | none => [0, 0])
          ++ bytesOfHalf (ofOrigin (.station n))))
    ∧ (let word (x : Source) : Nat :=
        (match x.state with | .disarmed => 0 | .quiet => 1 | .rising => 2 | .deferred => 3 | .exhausted => 4)
          + bit 3 x.noDrying + 16 * (x.deviation.getD (-1024) % 2048).toNat
          + 32768 * (match x.state with
            | .quiet => x.inhibit
            | .rising => x.level.getD 0 + 128 * x.run
            | .exhausted => x.run
            | .disarmed | .deferred => match x.baseline with | some b => b.toNat | none => 2047)
      answers .readHumidity 30
        (bytesOfHalf (ofOrigin .humidity) ++ bytesOf 4 (word (s.humidity.source .extract))
          ++ (List.finRange 6).flatMap fun n => bytesOf 4 (word (s.humidity.source (.station n)))))
    ∧ (let p := s.pressure
      let r := p.record
      let state :=
        match r.state with | .none => 0 | .waiting => 1 | .inProgress => 2 | .done => 3 | .aborted => 4
      let cause := match r.cause with | none => 0 | some .cancelled => 1 | some .standby => 2
      let phase := match p.phase with | .free => 0 | .select _ => 1 | .sample _ => 2
      let grants :=
        match p.history with | [] => 0 | [x] => 4 * who x + 16 | x :: y :: _ => who x + 4 * who y + 32
      answers .readMeasure 15
        (bytesOf 1 (state + 8 * cause + 32 * (match r.tap with | some x => tap x | none => 0))
          ++ bytesOf 1 (match r.result with | some x => flags x | none => 0)
          ++ (match r.result with | some x => values x 0 | none => bytesOf 6 0)
          ++ bytesOf 1 (phase + match p.phase.flight with | some f => 4 * who f.requester + 16 * tap f.tap | none => 0)
          ++ bytesOf 1 (match p.phase.flight with | some f => f.count | none => 0)
          ++ bytesOf 1 (tap p.position) ++ bytesOf 2 (min 65535 ((s.clock.ms - p.arrival) / 1000))
          ++ bytesOf 1 (bit 0 p.frost.isSome + bit 1 p.trim.isSome + bit 2 p.filter.isSome + bit 3 p.link.isSome
            + bit 4 (s.gateOpen .frost) + bit 5 (s.gateOpen .trim) + bit 6 (s.gateOpen .filter) + bit 7 (s.gateOpen .link))
          ++ bytesOf 1 grants))
    ∧ (∀ (a : Byte) (x : Tap), a.toNat = tap x →
      answers (.readTap a) 12
        (bytesOf 1 (tap x) ++
          match s.pressure.entry x with
          | none => bytesOf 1 1 ++ bytesOf 10 0
          | some e =>
            bytesOf 1 (2 * flags e.result + 32 * who e.requester) ++ values e.result 0xFFFF
              ++ bytesOf 4 (s.clock.seconds - e.second)))
    ∧ (∀ (a : Byte) (i : FilterSlot), a.toNat = (match i with | .supply => 0 | .extract => 1) →
      let asked := match s.pressure.filter with | some q => decide (q.slot = some i) | none => false
      answers (.readFilter a) 32
        (match s.filters.slot i with
        | none => bytesOf 1 (1 + bit 7 asked) ++ bytesOf 31 0
        | some r =>
          let state := match r.state with | .learning => 0 | .service => 1 | .due => 2 | .overdue => 3
          let grade := match r.grade with | .coarse => 0 | .medium => 1 | .fine => 2
          let origin := match r.origin with | none => 0 | some .given => 1 | some .learnt => 2
          bytesOf 1 (2 * state + 8 * grade + 32 * origin + bit 7 asked) ++ bytesOf 4 r.fittedAt ++ bytesOf 2 r.interval
            ++ bytesOf 2 (r.pn0.getD 0) ++ bytesOf 1 (r.learnCount + 16 * r.causes.toNat) ++ bytesOf 3 r.learnSum
            ++ bytesOf 1 (bit 0 r.latestPn.isSome + bit 1 r.latestRatio.isSome + bit 2 r.lastValid.isSome)
            ++ bytesOf 2 (r.latestPn.getD 0) ++ bytesOf 2 (r.latestRatio.getD 0) ++ bytesOf 4 r.volume ++ bytesOf 2 r.litres
            ++ bytesOf 4 (s.hours - r.fittedAt)
            ++ bytesOf 4 (match r.lastValid with | some t => s.clock.seconds - t | none => 0)))
    ∧ (∀ (a : Byte) (f : FanId), a.toNat = (match f with | .sup => 0 | .ext => 1) →
      answers (.readCal a) 25
        (a :: (s.drive.cals.table f).toList.flatMap fun c => bytesOf 2 c.duty ++ bytesOf 2 c.flow))
    ∧ (let g := s.frost
      let stage := match g.stage with | .clear => 0 | .watch => 1 | .limit => 2 | .cycle => 3 | .stop => 4
      let reason :=
        match g.reason with
        | .none => 0 | .mode => 1 | .margin => 2 | .ice => 3 | .saturated => 4 | .thawed => 5 | .cold => 6 | .iced => 7
        | .warmed => 8 | .retry => 9 | .outdoor => 10
      answers .readFrost 24
        (bytesOf 1 (stage + bit 3 g.fallback + bit 4 g.unjudged + bit 5 g.baseline.pn0.isSome) ++ bytesOf 1 reason
          ++ temp g.tf ++ temp g.margin ++ bytesOf 1 g.hold ++ bytesOf 1 g.saturation
          ++ bytesOf 1 (g.ice + bit 2 g.windows.preheat + bit 3 g.windows.reduce + bit 4 g.windows.gate + 32 * g.failed)
          ++ bytesOf 2 g.stopTimer ++ bytesOf 2 g.counter ++ bytesOf 2 g.latched.limit ++ bytesOf 1 g.reduction
          ++ bytesOf 1 g.preheat ++ ratio g.gateResult ++ ratio g.lastRatio ++ bytesOf 1 g.baseline.count
          ++ bytesOf 2 (g.baseline.pn0.getD 0)))
    ∧ (let h := s.drive.preheater
      let fan (f : FanId) : List Byte :=
        let x := s.drive.fan f
        let state := match x.state with | .idle => 0 | .running => 1 | .faultRest => 2 | .locked => 3
        let estimate :=
          match f with
          | .sup => roundDiv (CalTable.flowAt s.drive.cals.sup s.drive.sup.commanded * 1000) s.drive.trim
          | .ext => CalTable.flowAt s.drive.cals.ext s.drive.ext.commanded
        bytesOf 1 (state + bit 2 (x.source ≠ .auto) + 8 * x.attempts)
          ++ bytesOf 1 (if x.state = .faultRest then x.rest else x.stall)
          ++ bytesOf 2 (match x.source with | .auto => 0xFFFF | .direct v => v) ++ bytesOf 2 x.requested
          ++ bytesOf 2 x.commanded ++ bytesOf 2 (s.sensing.tach f).speed ++ flow estimate
      answers .readFans 32
        (fan .sup ++ fan .ext ++ bytesOf 2 s.drive.trim ++ bytesOf 2 (min 65535 (s.drive.elapsed / 1000))
          ++ bytesOf 1 (bit 0 s.drive.steady + bit 1 (h.source ≠ .auto))
          ++ bytesOf 1 (match h.source with | .auto => 0xFF | .direct v => v)
          ++ bytesOf 1 (match h.source with | .auto => s.resolver.view.preheat | .direct v => v)
          ++ bytesOf 1 h.effective))
    ∧ (∃ data, answers .readNotices 14 data)
    ∧ (∀ a : Byte, 1 ≤ a.toNat → a.toNat ≤ 49 →
        ∃ x, Param.ofIdent a = some x ∧ answers (.getParam a) 5 (a :: bytesOfInt 4 (s.params.get x)))
    ∧ (∀ h r, s.demand.find h = some r →
        let origin : Byte :=
          match r.origin with | .link => 0 | .station n => BitVec.ofNat 8 (n.val + 1) | .cooker => 7 | .humidity => 8
        let kind : Byte := match r.kind with | .hold => 0 | .boost => 1 | .setback => 2
        let duration := match r.duration with | .absent => 0xFFFF | .indefinite => 0 | .minutes n => n
        answers (.readDemand h) 21
          (bytesOfHalf h ++ [origin, kind] ++ bytesOf 1 r.level
            ++ [r.tag.getD 0, (if r.held then 1 else 0) + if r.tag.isSome then 2 else 0] ++ bytesOf 2 duration
            ++ num 4 r.remaining ++ bytesOf 4 r.seq ++ bytesOf 4 (s.clock.seconds - r.filedAt)))
    ∧ (∀ a : Byte,
        exec (.listDemands a) s =
          .next (s.respond .ok
            (bytesOf 1 s.demand.live.length ++ bytesOf 1 (min 8 (s.demand.live.length - a.toNat))
              ++ ((s.demand.live.drop a.toNat).take 8).flatMap fun r => bytesOfHalf r.handle)))
    ∧ (∀ h, s.demand.find h = none → exec (.readDemand h) s = .next (s.respond .noSuch []))
    ∧ ∀ a : Byte,
      (a.toNat = 0 ∨ 6 < a.toNat → exec (.readStation a) s = .next (s.respond .badValue []))
      ∧ (4 ≤ a.toNat → exec (.readTap a) s = .next (s.respond .badValue []))
      ∧ (2 ≤ a.toNat → exec (.readFilter a) s = .next (s.respond .badValue []))
      ∧ (2 ≤ a.toNat → exec (.readCal a) s = .next (s.respond .badValue []))
      ∧ (a.toNat = 0 ∨ 49 < a.toNat → exec (.getParam a) s = .next (s.respond .badValue []))

/-! ### Parameters and notices -/

/-- R187 and R188: SET_PARAM. An identifier that names no parameter is refused. Otherwise the parameter takes the
accepted value and the command answers OK, or CLAMPED where that is not the value carried. An equal value changes
nothing further. A different one changes the parameter block and reaches the parameter's readers: the resolver, the
steadiness of the fans or the station table; every other parameter is read at its block's next event. A station taken into
STATIONS_ENABLED is SEEKING and marked, one taken out is UNCONFIGURED, its exchange void (R58), and a reading that this ends sets
SENSOR (assumption 13). -/
def Obligations.SetParameter : Prop :=
  ∀ (ident : Byte) (value : Word) (s : State), s.answering = true →
    (Param.ofIdent ident = none → exec (.setParam ident value) s = .next (s.respond .badValue []))
    ∧ ∀ x, Param.ofIdent ident = some x →
        let v := s.params.accepted x value
        let changed := { s with params := s.params.set x v, store := s.store.change .parameters }
        ∃ t, exec (.setParam ident value) s =
            .next (t.respond (if v = x.carried value then .ok else .clamped) (ident :: bytesOfInt 4 v))
          ∧ (s.params.get x = v → t = s)
          ∧ (s.params.get x ≠ v →
              (x.resolverReads = true → changed.RecomputedTo t)
              ∧ (x = .steadyTime →
                  let u : State :=
                    { changed with
                      drive := { s.drive with steady := changed.steadyNow }
                      pressure :=
                        { s.pressure with fresh := s.pressure.fresh && (changed.steadyNow || !s.drive.steady) } }
                  t = { u with pressure := t.pressure } ∧ u.ChannelSettledTo t.pressure)
              ∧ (x = .stationsEnabled →
                  let on (n : StationId) : Prop := changed.params.stations.getLsbD n = true
                  let ends (a b : Reading) : Prop := a.status ≠ .invalid ∧ b.status = .invalid
                  t = { changed with bus := t.bus, notices := t.notices }
                    ∧ (∀ n : StationId,
                        let y := s.bus.stations[n]
                        (y.state = .unconfigured →
                          (on n → t.bus.stations[n] = { Station.fresh .seeking with marked := true })
                          ∧ (¬on n → t.bus.stations[n] = y))
                        ∧ (y.state ≠ .unconfigured →
                          (on n → t.bus.stations[n] = y) ∧ (¬on n → t.bus.stations[n] = .fresh .unconfigured)))
                    ∧ (∀ n frame e, s.bus.exchange = .sending n frame e →
                        t.bus.exchange = if on n then .sending n frame e else .void frame e)
                    ∧ (∀ n e b, s.bus.exchange = .window n e b →
                        t.bus.exchange = if on n then .window n e b else .idle)
                    ∧ (s.bus.exchange = .idle ∨ (∃ frame e, s.bus.exchange = .void frame e) →
                        t.bus.exchange = s.bus.exchange)
                    ∧ ((∃ n : StationId, ends s.bus.stations[n].temperature t.bus.stations[n].temperature
                          ∨ ends s.bus.stations[n].humidity t.bus.stations[n].humidity) →
                        t.notices = s.notices.set .sensor)
                    ∧ ((∀ n : StationId, ¬ends s.bus.stations[n].temperature t.bus.stations[n].temperature
                          ∧ ¬ends s.bus.stations[n].humidity t.bus.stations[n].humidity) → t.notices = s.notices))
              ∧ (x.resolverReads = false → x ≠ .steadyTime → x ≠ .stationsEnabled → t = changed))

/-- R186 and R187: the value SET_PARAM puts in force lies in the parameter's range and keeps its pairing bound, so
that every parameter still does; a value that does both is taken as it is. -/
def Obligations.AcceptedParametersKeepTheirRanges : Prop :=
  ∀ (p : Params) (x : Param) (value : Word), p.Ok →
    (p.set x (p.accepted x value)).Ok
      ∧ (x.isSet = false → x.row.lo ≤ value.toInt → value.toInt ≤ x.row.hi → p.paired x value.toInt = value.toInt →
          p.accepted x value = value.toInt)

/-- R189 with R200: READ_NOTICES answers OK with the flags, NOTICE_MASK, the cause of the last reset, the set of
defaulted blocks and the two counters, each in its place, and changes nothing else. R190: CLEAR_NOTICES with a bit
that names no flag is refused; otherwise it clears the flags it names and no other, and answers OK with the flags
after it. -/
def Obligations.NoticesAreReadAndCleared : Prop :=
  ∀ s : State, s.answering = true →
    (s.clock.seconds ≤ 4294967295 → s.hours ≤ 4294967295 →
      ∃ data, exec .readNotices s = .next (s.respond .ok data) ∧ data.length = 14
        ∧ fieldAt data 0 2 = s.notices.flags.toNat ∧ fieldAt data 2 2 = s.params.mask.toNat
        ∧ (fieldAt data 4 1 = 0 ↔ s.notices.cause = .power) ∧ (fieldAt data 4 1 = 1 ↔ s.notices.cause = .pin)
        ∧ (fieldAt data 4 1 = 2 ↔ s.notices.cause = .command)
        ∧ fieldAt data 5 1 = s.notices.defaulted.toNat ∧ fieldAt data 6 4 = s.clock.seconds
        ∧ fieldAt data 10 4 = s.hours)
    ∧ ∀ flags : Half,
      (512 ≤ flags.toNat → exec (.clearNotices flags) s = .next (s.respond .badValue []))
      ∧ (flags.toNat < 512 →
          ∃ f : BitVec 9, (∀ x : Notice, f.getLsbD x.bit = (s.notices.has x && !flags.getLsbD x.bit))
            ∧ exec (.clearNotices flags) s =
              .next ({ s with notices := { s.notices with flags := f } }.respond .ok (bytesOf 2 f.toNat)))

/-- R191: ATTN is asserted, ATTN_N low, exactly when a notice flag outside NOTICE_MASK is set, in the state as it
stands after each event; in reset and during loading the line is released. NOTICE_MASK is empty by default and RESET
is set by every reset, so that ATTN is then asserted until RESET is cleared. -/
def Obligations.AttnFollowsTheFlags : Prop :=
  (∀ s : State,
    (s.attn = true ↔ s.running = true ∧ s.link.loading = false
      ∧ ∃ x : Notice, s.notices.has x = true ∧ s.params.mask.getLsbD x.bit = false)
    ∧ s.attnPin = !s.attn)
  ∧ Params.default.mask = 0
  ∧ ∀ (cause : ResetCause) (failed : BitVec 6), (Notices.afterReset cause failed).has .reset = true

/-! ### The settings store and resets -/

/-- R194: a changed block joins the tail of the pending queue unless it is PENDING; with no write in progress the head
of the queue becomes WRITING with its contents as they stand, the item of its owner (R193), for the filter block without last valid
at (R181); at its completion the memory holds them in that block, and a block whose write fails is not good. A start without
a block to write and a completion without a write change nothing. R183: at the end of loading the part acknowledges
its address. A loss of the supply stops the part and cuts short a write in progress, a clearing's so that its block fails (R194,
R197). That every other item then stays as it is, and that a cut write otherwise ends in one of three ways, are the model's
choices (assumptions 26, 27 and 3). -/
def Obligations.TheStoreLoadsAndWritesItsBlocks : Prop :=
  ∀ s : State,
    ((∀ c, s.life = .held c → exec .powerLoss s = .next { s with life := .off true })
    ∧ ∀ low, s.life = .off low → exec .powerLoss s = .next s)
    ∧ (∀ b : Block, s.image b =
      let slot (r : FilterRecord) : FilterRecord := { r with lastValid := none }
      match b with
      | .parameters => .parameters s.params
      | .calibrations => .calibrations s.drive.cals
      | .filterRecords => .filterRecords ⟨s.filters.supply.map slot, s.filters.extract.map slot⟩
      | .exchangerBaseline => .exchangerBaseline s.frost.baseline
      | .hours => .hours s.hours
      | .storedMode => .storedMode s.resolver.stored)
    ∧ (∀ (m : Store) (x : Image), m.put x =
      match x with
      | .parameters p => { m with params := some p }
      | .calibrations c => { m with cals := some c }
      | .filterRecords f => { m with filters := some f }
      | .exchangerBaseline b => { m with baseline := some b }
      | .hours n => { m with hours := some n }
      | .storedMode k => { m with mode := some k })
    ∧ (∀ (m : Store) (x : Image), m.spoil x =
      match x with
      | .parameters _ => { m with params := none }
      | .calibrations _ => { m with cals := none }
      | .filterRecords _ => { m with filters := none }
      | .exchangerBaseline _ => { m with baseline := none }
      | .hours _ => { m with hours := none }
      | .storedMode _ => { m with mode := none })
    ∧ (s.running = true →
    exec .loadingEnd s = .next { s with link := { s.link with loading := false } }
    ∧ (∃ m ∈ s.store.afterCut, ∃ n,
        exec .powerLoss s = .next { s with life := .off false, store := m, freeCount := n }
        ∧ ∀ x rest, s.store.writing = some x → s.store.clearing = some rest → rest.length < 6 →
            m = { s.store.spoil x with writing := none, writeElapsed := 0 })
    ∧ (∀ x, s.store.writing = some x →
        exec .storeWriteComplete s =
          .next { s with store := { s.store.put x with writing := none, writeElapsed := 0 } })
    ∧ (s.store.writing = none → exec .storeWriteComplete s = .next s)
    ∧ (s.store.clearing = none →
      (∀ b, s.store.change b = { s.store with queue := if b ∈ s.store.queue then s.store.queue else s.store.queue ++ [b] })
    ∧ (∀ b rest, s.store.writing = none → s.store.queue = b :: rest →
        exec .storeWriteStart s =
          .next { s with store := { s.store with writing := some (s.image b), writeElapsed := 0, queue := rest } })
    ∧ (s.store.writing.isSome = true ∨ s.store.queue = [] → exec .storeWriteStart s = .next s)))

/-- R195 with R193 and the reset values of every chapter (R126, R136 to R138, R144 and R148 among them): every cause gives the
same result, `State.ResetTo` of the memory: the supply's return, the rise of RST_N and RESET alike, each with the levels at the
straps. While RST_N is low the part is held in reset. The model's choices: a write that is cut short leaves its block failing,
old or new (assumption 3); a loss of the supply leaves the other items as they are, and POWER_RESET may come without one
(assumption 26); RST_N's rise alone stands for the whole pulse, and a held reset keeps the cause of its beginning (assumption
37); and the levels that RESET samples are free values (assumption 15). -/
def Obligations.ResetsRestartEveryBlock : Prop :=
  ∀ s : State,
    let ends (c : Instr) (cause : ResetCause) (straps : BitVec 2) :=
      ∃ m ∈ s.store.afterCut, ∃ t, exec c s = .next t ∧ s.ResetTo m cause straps t
    (∀ straps : BitVec 2,
      (s.life = .running ∨ s.life = .off false → ends (.powerReset straps) .power straps)
      ∧ ((∃ c, s.life = .held c) ∨ s.life = .off true →
          exec (.powerReset straps) s = .next { s with life := .held .power })
      ∧ (s.life = .running → ends (.pinReset (some straps)) .pin straps)
      ∧ (∀ c, s.life = .held c → ends (.pinReset (some straps)) c straps)
      ∧ ∀ low, s.life = .off low → exec (.pinReset (some straps)) s = .next { s with life := .off false })
    ∧ (s.life = .running → ∃ m ∈ s.store.afterCut, ∃ n,
        exec (.pinReset none) s = .next { s with life := .held .pin, store := m, freeCount := n })
    ∧ (∀ c, s.life = .held c → exec (.pinReset none) s = .next s)
    ∧ (∀ low, s.life = .off low → exec (.pinReset none) s = .next { s with life := .off true })
    ∧ (s.answering = true → ∃ straps, ends .reset .command straps)

/-- R197: FACTORY_CLEAR outside STANDBY is refused with WRONG_MODE; in STANDBY it forms no response, discards the
pending queue and takes up the six blocks, and the part no longer acknowledges. The defaults are then written one after another,
in the order of R193's table by the model's choice (assumption 43), a write in progress being finished first; when the last is
written the part resets with the cause COMMAND, every block at its default and none failed. The straps that this reset samples
are a free value (assumption 15), and FACTORY_CLEAR_DONE trusts that its moment has come (assumption 9). -/
def Obligations.FactoryClearWritesEveryDefault : Prop :=
  ∀ s : State,
    (s.answering = true → s.resolver.mode ≠ .standby →
      exec .factoryClear s = .next (s.respond .wrongMode []))
    ∧ (s.answering = true → s.resolver.mode = .standby →
        ∃ t, exec .factoryClear s = .next t ∧ t.answering = false
          ∧ t = { s with store := { s.store with
              queue := []
              clearing := some [.parameters, .calibrations, .filterRecords, .exchangerBaseline, .hours, .storedMode] } })
    ∧ (s.running = true → ∀ x rest, s.store.clearing = some rest → s.store.writing = some x →
        exec .storeWriteStart s = .next s
        ∧ exec .storeWriteComplete s =
            .next { s with store := { s.store.put x with writing := none, writeElapsed := 0 } })
    ∧ (s.running = true → ∀ b rest, s.store.clearing = some (b :: rest) → s.store.writing = none →
        exec .storeWriteStart s =
          .next { s with store :=
            { s.store with writing := some b.defaultImage, writeElapsed := 0, clearing := some rest } })
    ∧ (∀ b : Block, b.defaultImage =
        let curve : CalTable := #v[⟨200, 80⟩, ⟨360, 160⟩, ⟨520, 240⟩, ⟨680, 320⟩, ⟨840, 400⟩, ⟨1000, 480⟩]
        match b with
        | .parameters => .parameters .default
        | .calibrations => .calibrations ⟨curve, curve⟩
        | .filterRecords => .filterRecords ⟨none, none⟩
        | .exchangerBaseline => .exchangerBaseline ⟨0, 0, none⟩
        | .hours => .hours 0
        | .storedMode => .storedMode .standby)
    ∧ (s.running = true → s.store.clearing.isSome = true →
        ∃ straps t, exec .factoryClearDone s = .next t
          ∧ s.ResetTo s.store.cleared .command straps t
          ∧ s.store.cleared =
            { s.store with
              params := some .default, cals := some .default, filters := some .default, baseline := some .default
              hours := some 0, mode := some .standby, writing := none, writeElapsed := 0 }
          ∧ t.notices = ⟨Notice.reset.flag, .command, 0⟩ ∧ t.params = .default ∧ t.drive.cals = .default
          ∧ t.filters = .default ∧ t.frost.baseline = .default ∧ t.hours = 0 ∧ t.resolver.stored = .standby)

/-! ### The demand table -/

/-- R25: a handle names a live record exactly when that record's entry is its low byte and the entry's present
generation is its high byte; every record is named by its own handle, and handle 0 by none. -/
def Obligations.HandlesNameTheirRecords : Prop :=
  ∀ t : DemandTable, t.Ok →
    (∀ (h : Half) (r : DemandRecord), t.find h = some r ↔
      r ∈ t.live ∧ r.entry.val = (h.extractLsb' 0 8).toNat ∧ t.gens[r.entry] = (h.extractLsb' 8 8).toNat)
    ∧ (∀ r ∈ t.live, t.find r.handle = some r) ∧ t.find 0 = none

/-- R31: a free entry exists for every filing that is a new record: for a LINK filing below the quota of 16, and for a
filing of another origin that has no record of its key. -/
def Obligations.AFreeEntryExistsForEveryFiling : Prop :=
  ∀ t : DemandTable, t.Ok →
    (t.linkCount < 16 → t.freeList ≠ [])
    ∧ ∀ o : Origin, o ≠ .link → t.byOrigin o .boost = none → t.freeList ≠ []

/-- R36 with R24, R26, R29 and R35: a FILE_DEMAND whose key matches no live record, below the quota, puts a new record
into the entry at the head of the free list with the entry's next generation and the next sequence number, at the last
place of the order; it answers its handle with the outcome NEW, CLAMPED where a value was. The resolver recomputes. A
counter at its largest value makes the table renumber its records first, keeping their order and all else. -/
def Obligations.FileDemandMakesANewRecord : Prop :=
  ∀ (kind level tag : Byte) (duration : Half) (s : State) (k : Kind) (e : Fin 24) (rest : List (Fin 24)),
    s.answering = true → [Kind.hold, .boost, .setback][kind.toNat]? = some k →
    (∀ r ∈ s.demand.live, ¬(r.origin = .link ∧ r.kind = k ∧ r.tag = some tag)) → s.demand.linkCount < 16 →
    s.demand.freeList = e :: rest →
      let minutes := min 1440 duration.toNat
      let old := s.demand.makeRoom
      let r : DemandRecord :=
        { entry := e, gen := if s.demand.gens[e] < 255 then s.demand.gens[e] + 1 else 1
          origin := .link, kind := k, level := min 100 level.toNat, tag := some tag
          duration := if duration = 0 then .indefinite else .minutes minutes
          remaining := if duration = 0 then none else some (minutes * 60)
          seq := old.counter + 1, filedAt := s.clock.seconds, held := false }
      (s.demand.counter < 4294967295 → old = s.demand)
      ∧ (4294967295 ≤ s.demand.counter →
          old.counter = s.demand.live.length ∧ old.live.map (·.seq) = (List.range s.demand.live.length).map (· + 1)
          ∧ old.live.map (fun r => { r with seq := 0 }) = s.demand.live.map fun r => { r with seq := 0 })
      ∧ ∃ t, exec (.fileDemand kind level duration tag) s =
            .next (t.respond (if 100 < level.toNat ∨ 1440 < duration.toNat then .clamped else .ok)
              (bytesOfHalf (BitVec.ofNat 16 (r.gen * 256 + e.val)) ++ [0]))
          ∧ State.RecomputedTo
              { s with demand :=
                { live := old.live ++ [r], gens := s.demand.gens.set e r.gen, freeList := rest
                  counter := old.counter + 1 } } t

/-- R37 with R35 and R50: a FILE_DEMAND whose key matches a live record gives it the filed level and duration where it
stands and answers its handle with the outcome AMENDED, whatever the LINK count. The resolver recomputes where the
level changes, and otherwise nothing else changes. -/
def Obligations.FileDemandAmendsAMatchingRecord : Prop :=
  ∀ (kind level tag : Byte) (duration : Half) (s : State) (k : Kind) (pre post : List DemandRecord) (r : DemandRecord),
    s.answering = true → [Kind.hold, .boost, .setback][kind.toNat]? = some k → s.demand.Ok →
    s.demand.live = pre ++ r :: post → r.origin = .link → r.kind = k → r.tag = some tag →
      let minutes := min 1440 duration.toNat
      let r' : DemandRecord :=
        { r with
          level := min 100 level.toNat
          duration := if duration = 0 then .indefinite else .minutes minutes
          remaining := if duration = 0 then none else some (minutes * 60) }
      let amended : State := { s with demand := { s.demand with live := pre ++ r' :: post } }
      ∃ t, exec (.fileDemand kind level duration tag) s =
          .next (t.respond (if 100 < level.toNat ∨ 1440 < duration.toNat then .clamped else .ok)
            (bytesOfHalf r.handle ++ [1]))
        ∧ (r'.level = r.level → t = amended) ∧ (r'.level ≠ r.level → amended.RecomputedTo t)

/-- R38 with R50: AMEND_DEMAND of a LINK record replaces the present fields where the record stands and answers them;
the resolver recomputes where the level changes, and otherwise nothing else changes. -/
def Obligations.AmendDemandReplacesThePresentFields : Prop :=
  ∀ (fields level : Byte) (duration : Half) (s : State) (pre post : List DemandRecord) (r : DemandRecord),
    s.answering = true → s.demand.Ok → s.demand.live = pre ++ r :: post → r.origin = .link → fields.toNat < 4 →
      let minutes := min 1440 duration.toNat
      let r1 := if fields.getLsbD 0 then { r with level := min 100 level.toNat } else r
      let r' : DemandRecord :=
        if fields.getLsbD 1 then
          { r1 with
            duration := if duration = 0 then .indefinite else .minutes minutes
            remaining := if duration = 0 then none else some (minutes * 60) }
        else r1
      let amended : State := { s with demand := { s.demand with live := pre ++ r' :: post } }
      ∃ t, exec (.amendDemand r.handle fields level duration) s =
          .next (t.respond
            (if fields.getLsbD 0 ∧ 100 < level.toNat ∨ fields.getLsbD 1 ∧ 1440 < duration.toNat then .clamped else .ok)
            (bytesOf 1 r'.level ++ durationField r'.duration ++ quantityField 4 r'.remaining))
        ∧ (r'.level = r.level → t = amended) ∧ (r'.level ≠ r.level → amended.RecomputedTo t)

/-- R39 and R34: RETIRE_DEMAND of a LINK or a STATION record takes it out of the order; its entry joins the tail of
the free list with its generation unchanged, the resolver recomputes, and no notice is set. -/
def Obligations.RetireDemandFreesTheEntry : Prop :=
  ∀ (s : State) (pre post : List DemandRecord) (r : DemandRecord),
    s.answering = true → s.demand.Ok → s.demand.live = pre ++ r :: post →
    r.origin ≠ .cooker → r.origin ≠ .humidity →
      ∃ t, exec (.retireDemand r.handle) s = .next (t.respond .ok [])
        ∧ State.RecomputedTo
            { s with demand :=
              { s.demand with live := pre ++ post, freeList := s.demand.freeList ++ [r.entry] } } t

/-- R33 and R34: a record whose remaining time has run out is retired; only for a LINK record is the DEMAND notice
set. A handle that names no record, or one without a remaining time, has nothing to expire. -/
def Obligations.DemandExpiryRetiresTheRecord : Prop :=
  ∀ s : State, s.running = true → s.demand.Ok →
    (∀ pre post r, s.demand.live = pre ++ r :: post → r.remaining.isSome = true →
      ∃ t, exec (.demandExpiry r.handle) s =
          .next { t with notices := if r.origin = .link then s.notices.set .demand else s.notices }
        ∧ State.RecomputedTo
            { s with demand :=
              { s.demand with live := pre ++ post, freeList := s.demand.freeList ++ [r.entry] } } t)
    ∧ (∀ h, (∀ r, s.demand.find h = some r → r.remaining = none) → exec (.demandExpiry h) s = .next s)

/-- R35, R38 and R39: the refusals of FILE_DEMAND, AMEND_DEMAND and RETIRE_DEMAND, each with its status; a refused
command changes the response alone. The bytes of TABLE_FULL, the handle 0 alone, are the model's reading (assumption
12), and so is the empty response to FILE_DEMAND's BAD_VALUE (DESIGN CHOICE, assumption 51). -/
def Obligations.RefusedDemandCommandsChangeNothing : Prop :=
  ∀ s : State, s.answering = true →
    (∀ kind level duration tag, 3 ≤ kind.toNat →
      exec (.fileDemand kind level duration tag) s = .next (s.respond .badValue []))
    ∧ (∀ (kind level : Byte) (duration : Half) (tag : Byte) (k : Kind),
        [Kind.hold, .boost, .setback][kind.toNat]? = some k →
        (∀ r ∈ s.demand.live, ¬(r.origin = .link ∧ r.kind = k ∧ r.tag = some tag)) → 16 ≤ s.demand.linkCount →
        exec (.fileDemand kind level duration tag) s = .next (s.respond .tableFull [0, 0]))
    ∧ (∀ handle fields level duration, 4 ≤ fields.toNat →
        exec (.amendDemand handle fields level duration) s = .next (s.respond .badValue []))
    ∧ (∀ handle fields level duration, fields.toNat < 4 → s.demand.find handle = none →
        exec (.amendDemand handle fields level duration) s = .next (s.respond .noSuch []))
    ∧ (∀ handle, s.demand.find handle = none → exec (.retireDemand handle) s = .next (s.respond .noSuch []))
    ∧ (∀ handle fields level duration r, fields.toNat < 4 → s.demand.find handle = some r → r.origin ≠ .link →
        exec (.amendDemand handle fields level duration) s = .next (s.respond .notAllowed []))
    ∧ ∀ handle r, s.demand.find handle = some r → r.origin = .cooker ∨ r.origin = .humidity →
        exec (.retireDemand handle) s = .next (s.respond .notAllowed [])

/-- R23 to R31: whatever a step does, the demand table keeps its entries each free or live and once, its order, its
keys, its quota and the ranges of its records, and what it is filed from, the settings and the humidity sources (R68), stays in its
ranges. -/
def Obligations.EveryStepKeepsTheDemandTable : Prop :=
  ∀ s t : State, s.demand.Ok → s.SettingsOk → (∀ i : SourceId, (s.humidity.source i).Ok) → step s = .next t →
    t.demand.Ok ∧ t.SettingsOk ∧ ∀ i : SourceId, (t.humidity.source i).Ok

/-! ### Sensing -/

/-- R4 with R1, R5 and R6: a sample is the mean of its eight conversion results to the nearest unit, a half away from
0, and is classified by the interval of its channel's table that it lies in. -/
def Obligations.SamplesAreClassifiedMeans : Prop :=
  (∀ v : Vector Int 8,
    let sum := v.toList.sum
    let m := sampleMean v
    (0 ≤ sum → sum - 4 < 8 * m ∧ 8 * m ≤ sum + 4) ∧ (sum < 0 → sum - 4 ≤ 8 * m ∧ 8 * m < sum + 4))
  ∧ (∀ c ∈ [AnalogChannel.oa, .sa, .ea, .eha], ∀ v : Int,
    (v < -450 ∨ 700 < v → classify c v = none) ∧ (-450 ≤ v → v ≤ -401 → classify c v = some (-400))
    ∧ (-400 ≤ v → v ≤ 600 → classify c v = some v) ∧ (601 ≤ v → v ≤ 700 → classify c v = some 600))
  ∧ (∀ c ∈ [AnalogChannel.outdoorRh, .extractRh], ∀ v : Int,
    (v < -50 ∨ 1050 < v → classify c v = none) ∧ (-50 ≤ v → v ≤ -1 → classify c v = some 0)
    ∧ (0 ≤ v → v ≤ 1000 → classify c v = some v) ∧ (1001 ≤ v → v ≤ 1050 → classify c v = some 1000))

/-- R7 to R11: a good sample makes its channel VALID with the sample's value; a failed one holds a VALID channel for
60 s, leaves a HELD or an INVALID one as it is and makes a PENDING one INVALID; a hold that runs out makes its channel
INVALID. SENSOR is set where a channel becomes INVALID, or VALID from INVALID. No other channel, and nothing else,
moves. -/
def Obligations.AnalogChannelsFollowTheirSamples : Prop :=
  ∀ (c : AnalogChannel) (conversions : Vector Int 8) (s : State), s.running = true →
    let x := s.sensing.channel c
    let moved (v : Channel) : State := { s with sensing := s.sensing.setChannel c v }
    (∀ v, classify c (sampleMean conversions) = some v →
      exec (.analogSample c conversions) s =
        .next ((moved ⟨.valid, some v, 0, some v⟩).notifyIf (x.status = .invalid) .sensor))
    ∧ (classify c (sampleMean conversions) = none →
      (x.status = .valid →
        exec (.analogSample c conversions) s = .next (moved { x with status := .held, hold := 60 }))
      ∧ (x.status = .held ∨ x.status = .invalid → exec (.analogSample c conversions) s = .next s)
      ∧ (x.status = .pending →
        exec (.analogSample c conversions) s =
          .next ((moved { x with status := .invalid, value := none, hold := 0 }).notify .sensor)))
    ∧ (x.status = .held →
      exec (.holdTimerExpiry c) s =
        .next ((moved { x with status := .invalid, value := none, hold := 0 }).notify .sensor))
    ∧ (x.status ≠ .held → exec (.holdTimerExpiry c) s = .next s)
    ∧ ∀ v d, (s.sensing.setChannel c v).channel d = if d = c then v else s.sensing.channel d

/-- R13 and R14 with R46, R47, R78: the samples of a contact are taken in their order. A sample equal to the debounced
level clears the count; one that differs counts, and the fourth in a row takes the level over and clears the count.
COOKER taken as CLOSED files the cooker's record, or suspends its run-on; COOKER taken as OPEN starts the run-on, or
retires the record where COOKER_RUNON is 0. NIGHT taken as CLOSED changes no source. Its release judges each DEFERRED source on
its last deviation: from HUM_RISE up it is RISING, with the level (R75) and the drying check (R80) of its last sample, and else
QUIET; no other source changes, and the HUMIDITY record follows (R82). -/
def Obligations.ContactSamplesActOnTheirContact : Prop :=
  ∀ (c : Contact) (s : State), s.running = true →
    exec (.contactLevelChange c []) s = .next s
    ∧ (∀ samples high t, exec (.contactLevelChange c samples) s = .next t →
        exec (.contactLevelChange c (samples ++ [high])) s = exec (.contactLevelChange c [high]) t)
    ∧ ∀ high : Bool,
      let x := s.sensing.contact c
      let moved (v : ContactInput) : State := { s with sensing := s.sensing.setContact c v }
      let u := moved ⟨!high, 0⟩
      let run := exec (.contactLevelChange c [high]) s
      (x.closed = !high → run = .next (moved { x with count := 0 }))
      ∧ (x.closed = high → x.count < 3 → run = .next (moved { x with count := x.count + 1 }))
      ∧ (x.closed = high → 3 ≤ x.count →
          (c = .night → high = false → run = .next u)
          ∧ (c = .night → high = true → s.demand.Ok → ∃ h t, run = .next t
            ∧ State.HumidityAlignedTo { u with humidity := h } t
            ∧ ∀ i : SourceId,
              let p := s.params
              let y := s.humidity.source i
              (y.state ≠ .deferred ∨ y.last = none ∨ y.deviation = none → h.source i = y)
              ∧ ∀ v w e, y.state = .deferred → y.last = some (v, w) → y.deviation = some e →
                let top := p.get .humLevelMax
                let base := p.get .baseLevel
                let level := min top (max (min base top) (base + symRound ((top - base) * e) (2 * p.nat .humRise)))
                let dull : Bool := match s.sensing.outdoorMoisture with
                  | some o => decide ((moisture w v : Int) - o < p.get .dryingMargin)
                  | none => false
                (e < p.get .humRise → h.source i = { y with state := .quiet })
                ∧ (p.get .humRise ≤ e → h.source i =
                    { y with state := .rising, run := 0, level := some level.toNat, noDrying := dull }))
          ∧ (c = .cooker → high = false →
              (∀ e rest, s.demand.byOrigin .cooker .boost = none → s.demand.freeList = e :: rest →
                ∃ t, run = .next t ∧
                  State.RecomputedTo
                    { u with demand :=
                      s.demand.add ⟨.cooker, .boost, s.params.nat .cookerLevel, none, .absent, false⟩ s.clock.seconds } t)
              ∧ (∀ pre post r, s.demand.Ok → s.demand.live = pre ++ r :: post → r.origin = .cooker →
                run = .next { u with demand := { s.demand with
                  live := pre ++ { r with duration := .absent, remaining := none } :: post } }))
          ∧ (c = .cooker → high = true → ∀ pre post r, s.demand.Ok → s.demand.live = pre ++ r :: post →
              r.origin = .cooker →
                (s.params.nat .cookerRunon = 0 →
                  ∃ t, run = .next t ∧
                    State.RecomputedTo
                      { u with demand :=
                        { s.demand with live := pre ++ post, freeList := s.demand.freeList ++ [r.entry] } } t)
                ∧ (s.params.nat .cookerRunon ≠ 0 →
                  run = .next { u with demand := { s.demand with
                    live := pre ++
                      { r with
                        duration := .minutes (s.params.nat .cookerRunon)
                        remaining := some (s.params.nat .cookerRunon * 60) } :: post } })))

/-- R15 and R16: the first sample after a reset is the accepted level. Then a sample equal to the accepted level ends a
difference, one that differs is noted, and a second one in a row that differs takes the level over, a pulse where it is high.
A window takes its samples in order and closes with 30 rpm for each pulse, at most 65535, and the count at 0. So pulses of two
samples or more, apart by two samples or more, are counted whatever single samples of the other level stand in them. -/
def Obligations.TachWindowsCountPulses : Prop :=
  (∀ (x : TachInput) (high : Bool),
    (x.accepted = none → x.sample high = { x with accepted := some high, differs := false })
    ∧ ∀ level, x.accepted = some level →
      (high = level → x.sample high = { x with differs := false })
      ∧ (high ≠ level → x.differs = false → x.sample high = { x with differs := true })
      ∧ (high ≠ level → x.differs = true →
          x.sample high =
            { x with accepted := some high, differs := false, pulses := if high then x.pulses + 1 else x.pulses }))
  ∧ (∀ x : TachInput, x.close [] = { x with speed := min 65535 (x.pulses * 30), pulses := 0 })
  ∧ (∀ (x : TachInput) (high : Bool) (rest : List Bool), x.close (high :: rest) = (x.sample high).close rest)
  ∧ ∀ (x : TachInput) (cycles : List (List Bool × List Bool)), x.accepted = some false →
      (∀ c ∈ cycles, (∀ a b, c.1 ≠ a ++ [false, false] ++ b) ∧ ∀ a b, c.2 ≠ a ++ [true, true] ++ b) →
        (x.close (cycles.flatMap fun c => [true, true] ++ c.1 ++ ([false, false] ++ c.2))).speed =
          min 65535 ((x.pulses + cycles.length) * 30)

/-- R17 to R19 with R22: the saturation table is the manual's and strictly increases. Air at saturation turned back
into a dew point returns to its temperature at the table's points and to within 0.1 °C of it from -26.0 °C up; below,
where the table's integers are small, R18 and R19 give it to within 0.4 °C, and the sentence of section 1.5, "to within a tenth of
a degree", is set aside for the rules (assumption 46). Moisture content rises with the humidity,
is 0 at none and at most 152.45 g/kg, and a dew point lies in -40.0 °C to +60.0 °C. -/
def Obligations.MoistureArithmetic : Prop :=
  (List.range 21).map saturation =
      [8, 14, 23, 39, 63, 102, 160, 248, 377, 540, 763, 1065, 1470, 2008, 2720, 3658, 4889, 6506, 8635, 11459, 15245]
    ∧ (∀ i < 20, saturation i < saturation (i + 1))
    ∧ (∀ i : Nat, i ≤ 20 → dewPoint (moisture (50 * i - 400) 1000) = 50 * i - 400)
    ∧ (∀ t : Int, -260 ≤ t → t ≤ 600 → t - 1 ≤ dewPoint (moisture t 1000) ∧ dewPoint (moisture t 1000) ≤ t + 1)
    ∧ (∀ t : Int, -400 ≤ t → t ≤ 600 → t - 4 ≤ dewPoint (moisture t 1000) ∧ dewPoint (moisture t 1000) ≤ t + 4)
    ∧ (∀ t rh rh' : Int, rh ≤ rh' → moisture t rh ≤ moisture t rh')
    ∧ (∀ t rh : Int, rh ≤ 0 → moisture t rh = 0) ∧ (∀ t rh : Int, moisture t rh ≤ 15245)
    ∧ ∀ x : Nat, -400 ≤ dewPoint x ∧ dewPoint x ≤ 600

/-- R7 to R10: whatever a step does, a channel has a value exactly in VALID and HELD, its last valid one, and its hold
timer runs exactly in HELD. -/
def Obligations.EveryStepKeepsTheChannels : Prop :=
  ∀ s t : State, (∀ c : AnalogChannel, (s.sensing.channel c).Ok) → step s = .next t →
    ∀ c : AnalogChannel, (t.sensing.channel c).Ok

/-! ### The fan drive -/

/-- R110 and R112: on a table whose duties and flows increase, the duty of a lookup flow and the flow of a duty are,
by case, the manual's, and lie between the two points they are read from. -/
def Obligations.CalibrationLookups : Prop :=
  ∀ t : CalTable, CalTable.Ok t →
    (CalTable.dutyFor t 0 = 0 ∧ CalTable.flowAt t 0 = 0)
    ∧ (∀ q : Nat, 0 < q → q ≤ t[0].flow → CalTable.dutyFor t q = t[0].duty)
    ∧ (∀ q : Nat, t[5].flow ≤ q → CalTable.dutyFor t q = t[5].duty)
    ∧ (∀ (i : Fin 5) (q : Nat), t[0].flow < q → q < t[5].flow → t[i.val].flow ≤ q → q < t[i.val + 1].flow →
        CalTable.dutyFor t q =
          t[i.val].duty + roundDiv ((q - t[i.val].flow) * (t[i.val + 1].duty - t[i.val].duty))
            (t[i.val + 1].flow - t[i.val].flow)
        ∧ t[i.val].duty ≤ CalTable.dutyFor t q ∧ CalTable.dutyFor t q ≤ t[i.val + 1].duty)
    ∧ (∀ c : Nat, 0 < c → c < t[0].duty → CalTable.flowAt t c = roundDiv (t[0].flow * c) t[0].duty)
    ∧ (∀ c : Nat, t[5].duty ≤ c → CalTable.flowAt t c = t[5].flow)
    ∧ ∀ (i : Fin 5) (c : Nat), t[i.val].duty ≤ c → c < t[i.val + 1].duty →
        CalTable.flowAt t c =
          t[i.val].flow + roundDiv ((c - t[i.val].duty) * (t[i.val + 1].flow - t[i.val].flow))
            (t[i.val + 1].duty - t[i.val].duty)
        ∧ t[i.val].flow ≤ CalTable.flowAt t c ∧ CalTable.flowAt t c ≤ t[i.val + 1].flow

/-- R16 and R118 to R120: a window closes with its speed. A RUNNING fan commanded at least its first duty that turned
below 150 rpm counts a stall window, and any other fan counts none; the fifteenth in a row stalls the fan: to
FAULT_REST for 60 s with fewer than three attempts, else to LOCKED, with its duty at 0, its clean run at 0 and FAN
set, and the resolver recomputes. -/
def Obligations.TachWindowsJudgeTheFan : Prop :=
  ∀ (f : FanId) (samples : List Bool) (s : State), s.running = true →
    let i := (s.sensing.tach f).close samples
    let x := s.drive.fan f
    let closed : State := { s with sensing := s.sensing.setTach f i }
    let judged := x.state = .running ∧ s.firstDuty f ≤ x.commanded ∧ i.speed < 150
    let stalled (st : FanState) (rest : Nat) : Fan :=
      { x with state := st, commanded := 0, step := none, stall := 0, rest := rest, cleanRun := 0 }
    let run := exec (.tachWindowClose f samples) s
    (¬judged → run = .next { closed with drive := s.drive.setFan f { x with stall := 0 } })
    ∧ (judged → x.stall + 1 < 15 →
        run = .next { closed with drive := s.drive.setFan f { x with stall := x.stall + 1 } })
    ∧ (judged → 15 ≤ x.stall + 1 → x.attempts < 3 →
        ∃ t, run = .next t ∧
          State.RecomputedTo
            { closed with drive := s.drive.moveFan f (stalled .faultRest 60), notices := s.notices.set .fan } t)
    ∧ (judged → 15 ≤ x.stall + 1 → 3 ≤ x.attempts →
        ∃ t, run = .next t ∧
          State.RecomputedTo
            { closed with drive := s.drive.moveFan f (stalled .locked x.rest), notices := s.notices.set .fan } t)

/-- R119 to R121: the end of a rest makes the fan IDLE with one attempt more; the clean-run timer at 600 s ends the
fault episode of a RUNNING fan; CLEAR_FAN_FAULT makes a LOCKED fan IDLE with its counts at 0 and leaves any other fan
as it is. Where availability changes the resolver recomputes. -/
def Obligations.RestsAndLockoutsEnd : Prop :=
  ∀ (f : FanId) (s : State),
    let x := s.drive.fan f
    (s.running = true →
      (x.state = .faultRest →
        ∃ t, exec (.restEnd f) s = .next t ∧
          State.RecomputedTo
            { s with drive :=
              s.drive.setFan f { x with state := .idle, attempts := x.attempts + 1, rest := 0 } } t)
      ∧ (x.state ≠ .faultRest → exec (.restEnd f) s = .next s)
      ∧ (x.state = .running →
        exec (.cleanRunEnd f) s =
          .next { s with drive := s.drive.setFan f { x with cleanRun := 600, attempts := 0 } })
      ∧ (x.state ≠ .running → exec (.cleanRunEnd f) s = .next s))
    ∧ (s.answering = true → ∀ fan : Byte,
      (2 ≤ fan.toNat → exec (.clearFanFault fan) s = .next (s.respond .badValue []))
      ∧ ([FanId.sup, .ext][fan.toNat]? = some f → x.state = .locked →
        ∃ t, exec (.clearFanFault fan) s = .next (t.respond .ok []) ∧
          State.RecomputedTo
            { s with drive :=
              s.drive.setFan f { x with state := .idle, attempts := 0, stall := 0, cleanRun := 0 } } t)
      ∧ ([FanId.sup, .ext][fan.toNat]? = some f → x.state ≠ .locked →
        exec (.clearFanFault fan) s = .next (s.respond .ok [])))

/-- R109: a fan's request is 0, with a drop, where the fan is out, in STARTUP and STANDBY and in the stage STOP; else on AUTO the
duty that its table gives for the lookup flow, the supply's corrected by the trim, and on DIRECT the value, raised to the first
duty where it lies above 0 and below it. R113 to R115: a drop takes the commanded duty to 0 at once; a running ramp is redirected
and its step timer runs on; from 0 a request above 0 starts the fan at its first duty. A step of a ramp moves the commanded duty by
one toward the request, or, for a request of 0 at or below the first duty, to 0 with the fan IDLE; the step timer starts again
while the duties differ, the steadiness timer starts afresh (R116), and what hangs on the drive settles (R123, R134). The other
fan, the tables, the trim and the sources do not move. A stopped step timer does not run out. R105: FNS and FNE are high for the
commanded duty's share of their period. -/
def Obligations.SlewStepsMoveTheDutyByOne : Prop :=
  ∀ (f : FanId) (s : State),
    let x := s.drive.fan f
    let first := (s.drive.cals.table f)[0].duty
    let interval := roundDiv 1000 (s.params.nat .slewRate)
    let zero := x.state = .faultRest ∨ x.state = .locked ∨ s.resolver.mode = .startup ∨ s.resolver.mode = .standby
      ∨ s.frost.stage = .stop
    (zero → s.fanRequest f = ⟨0, true⟩)
    ∧ (¬zero → x.source = .auto → s.fanRequest f =
        ⟨match f with
          | .sup => CalTable.dutyFor s.drive.cals.sup (roundDiv (s.resolver.view.s1 * s.drive.trim) 1000)
          | .ext => CalTable.dutyFor s.drive.cals.ext s.resolver.view.e1, false⟩)
    ∧ (¬zero → ∀ v, x.source = .direct v → s.fanRequest f = ⟨if 0 < v ∧ v < first then first else v, false⟩)
    ∧ s.firstDuty f = first ∧ s.params.slewInterval = interval
    ∧ (∀ (y : Fan) (r : DutyRequest) (low time : Nat),
        (r.drop = true → y.follow r low time =
          { y with
            requested := 0, commanded := 0, step := none, state := if y.state = .running then .idle else y.state
            stall := if y.state = .running then 0 else y.stall })
        ∧ (r.drop = false → y.commanded ≠ 0 → y.follow r low time =
          { y with
            requested := r.duty
            step := if y.commanded = r.duty then none else match y.step with | some n => some n | none => some time })
        ∧ (r.drop = false → y.commanded = 0 → 0 < r.duty → y.follow r low time =
          { y with
            requested := r.duty, commanded := low, state := .running, step := if r.duty = low then none else some time })
        ∧ (r.drop = false → y.commanded = 0 → r.duty = 0 → y.follow r low time = { y with requested := 0, step := none }))
    ∧ s.fanPin f = (if s.running then x.commanded else 0)
    ∧ (s.running = true →
      let c :=
        if x.commanded < x.requested then x.commanded + 1
        else if 0 < x.requested ∨ first < x.commanded then x.commanded - 1
        else 0
      (x.state = .running → x.step.isSome = true → x.commanded ≠ x.requested →
        ∃ t, exec (.slewStep f) s = .next t ∧ s.DriveMovedTo t ∧ s.DriveSettledTo t
          ∧ t.drive.fan f =
            (if c = 0 then { x with commanded := 0, state := .idle, step := none, stall := 0 }
            else { x with commanded := c, step := if c = x.requested then none else some interval })
          ∧ (∀ g, g ≠ f → t.drive.fan g = s.drive.fan g)
          ∧ t.drive.elapsed = 0 ∧ (0 < s.params.nat .steadyTime → t.drive.steady = false))
      ∧ (x.state ≠ .running ∨ x.step = none ∨ x.commanded = x.requested → exec (.slewStep f) s = .next s))

/-- R116 and R123: the fans are steady while each one's commanded duty is its requested duty, both are available, and STEADY_TIME
has passed; the effective preheat duty is the requested one while the supply fan runs with a duty above 0, and else 0. Where both
fans hold their requests and are available, the steadiness timer's running out makes the
fans steady, with the channel's following, and else changes nothing. A preheater period begins with the element on while the
effective duty is above 0, and the end of the on-time turns it off unless the duty is 100; PRE shows it while the part runs. -/
def Obligations.SteadinessAndPreheaterEvents : Prop :=
  ∀ s : State,
    let d := s.drive
    let out (f : FanId) := (d.fan f).state = .faultRest ∨ (d.fan f).state = .locked
    let holds := d.sup.commanded = d.sup.requested ∧ d.ext.commanded = d.ext.requested ∧ ¬out .sup ∧ ¬out .ext
    (s.steadyNow = true ↔ holds ∧ s.params.nat .steadyTime * 1000 ≤ d.elapsed)
    ∧ (d.sup.state = .running → 0 < d.sup.commanded → s.effectivePreheat =
        match d.preheater.source with | .auto => s.resolver.view.preheat | .direct v => v)
    ∧ (d.sup.state ≠ .running ∨ d.sup.commanded = 0 → s.effectivePreheat = 0)
    ∧ (s.prePin = true ↔ s.running = true ∧ d.preheater.pin = true)
    ∧ (s.running = true →
      (holds →
        ∃ t, exec .steadinessReached s = .next t ∧ State.ChannelSettledTo { t with pressure := s.pressure } t.pressure
          ∧ t = { s with
              drive := { d with elapsed := max d.elapsed (s.params.nat .steadyTime * 1000), steady := true }
              pressure := t.pressure })
      ∧ (¬holds → exec .steadinessReached s = .next s)
      ∧ exec .preheatPeriodStart s =
          .next { s with drive := { d with preheater := { d.preheater with
            periodStart := s.clock.ms, pin := decide (0 < d.preheater.effective) } } }
      ∧ exec .preheatOnTimeEnd s =
          .next { s with drive := { d with preheater := { d.preheater with
            pin := d.preheater.pin && decide (100 ≤ d.preheater.effective) } } })

/-- R122: SET_SOURCE outside the lists is refused with BAD_VALUE, and outside COMMISSION with WRONG_MODE. In
COMMISSION the output takes the source, its DIRECT value at most 1000, or 100 for PRE; a fan's request is formed
again and the fan follows it (R109, R113 to R115), and what hangs on the drive settles; the other outputs, the tables and the trim
do not move. CLAMPED says that a value was taken at a limit or raised to the first duty. That a value of PRE above 255 is taken as
100 too is the model's choice (assumption 47). -/
def Obligations.SetSourceMapsAnOutput : Prop :=
  ∀ (output source : Byte) (value : Half) (s : State), s.answering = true →
    (3 ≤ output.toNat ∨ 2 ≤ source.toNat →
      exec (.setSource output source value) s = .next (s.respond .badValue []))
    ∧ (output.toNat < 3 → source.toNat < 2 → s.resolver.mode ≠ .commission →
      exec (.setSource output source value) s = .next (s.respond .wrongMode []))
    ∧ (s.resolver.mode = .commission → source.toNat < 2 →
      (∀ f : FanId, [FanId.sup, .ext][output.toNat]? = some f →
        let x : DriveSource := if source.toNat = 1 then .direct (min 1000 value.toNat) else .auto
        ∃ t status data, exec (.setSource output source value) s = .next (t.respond status data)
          ∧ s.DriveMovedTo t ∧ s.DriveSettledTo t
          ∧ t.drive.fan f =
            Fan.follow { s.drive.fan f with source := x }
              (State.fanRequest { s with drive := s.drive.setFan f { s.drive.fan f with source := x } } f)
              (s.firstDuty f) s.params.slewInterval
          ∧ (t.drive.fan f).source = x ∧ (∀ g, g ≠ f → t.drive.fan g = s.drive.fan g)
          ∧ (t.drive.fan f).requested = (t.fanRequest f).duty
          ∧ (t.drive.fan f).attempts = (s.drive.fan f).attempts ∧ (t.drive.fan f).rest = (s.drive.fan f).rest
          ∧ (t.drive.fan f).state.available = (s.drive.fan f).state.available
          ∧ (status = .clamped ↔ source.toNat = 1 ∧ (1000 < value.toNat ∨
              (0 < value.toNat ∧ value.toNat < s.firstDuty f ∧ s.forcedToZero f = false)))
          ∧ (status = .ok ∨ status = .clamped)
          ∧ data = [output, source] ++ quantityField 2 x.value ++ bytesOf 2 (t.drive.fan f).requested)
      ∧ (output.toNat = 2 →
        let x : DriveSource := if source.toNat = 1 then .direct (min 100 value.toNat) else .auto
        ∃ t, exec (.setSource output source value) s =
            .next (t.respond (if source.toNat = 1 ∧ 100 < value.toNat then .clamped else .ok)
              ([output, source] ++ quantityField 2 x.value ++ bytesOf 2 0xFFFF))
          ∧ State.DriveMovedTo { s with drive := { s.drive with preheater := { s.drive.preheater with source := x } } } t
          ∧ State.DriveSettledTo { s with drive := { s.drive with preheater := { s.drive.preheater with source := x } } } t
          ∧ (∀ g, t.drive.fan g = s.drive.fan g) ∧ t.drive.elapsed = s.drive.elapsed))

/-- R107: WRITE_CAL of a fan or a point outside the lists, of a duty outside 1 to 1000, of a flow of 0, or of a point
that does not lie between its neighbours is refused with BAD_VALUE and changes nothing. Any other replaces the point,
forms the fan's request again, which the fan follows, answers the whole table and changes the calibration block. -/
def Obligations.WriteCalReplacesAPoint : Prop :=
  ∀ (fan point : Byte) (duty flow : Half) (s : State), s.answering = true →
    (2 ≤ fan.toNat ∨ 6 ≤ point.toNat → exec (.writeCal fan point duty flow) s = .next (s.respond .badValue []))
    ∧ ∀ (f : FanId) (i : Fin 6), [FanId.sup, .ext][fan.toNat]? = some f → point.toNat = i.val →
        let t := s.drive.cals.table f
        let allowed := 0 < duty.toNat ∧ duty.toNat ≤ 1000 ∧ 0 < flow.toNat
          ∧ (∀ j : Fin 6, j.val + 1 = i.val → t[j].duty < duty.toNat ∧ t[j].flow < flow.toNat)
          ∧ (∀ j : Fin 6, i.val + 1 = j.val → duty.toNat < t[j].duty ∧ flow.toNat < t[j].flow)
        (¬allowed → exec (.writeCal fan point duty flow) s = .next (s.respond .badValue []))
        ∧ (allowed →
          let cals := s.drive.cals.setTable f (t.set i ⟨duty.toNat, flow.toNat⟩)
          let w : State := { s with drive := { s.drive with cals := cals }, store := s.store.change .calibrations }
          ∃ u, exec (.writeCal fan point duty flow) s = .next (u.respond .ok (u.calReport f))
            ∧ w.DriveMovedTo u ∧ w.DriveSettledTo u
            ∧ u.drive.fan f = (s.drive.fan f).follow (w.fanRequest f) (w.firstDuty f) s.params.slewInterval
            ∧ (∀ g, g ≠ f → u.drive.fan g = s.drive.fan g)
            ∧ (u.drive.fan f).requested = (u.fanRequest f).duty ∧ (u.drive.fan f).source = (s.drive.fan f).source
            ∧ (u.drive.fan f).state.available = (s.drive.fan f).state.available)

/-- R105, R116, R117, R123 and section 6.8: whatever a step does, a fan has a commanded duty of 1 to 1000 exactly
while it is RUNNING, its step timer runs exactly while its ramp goes on, and its counts lie in their ranges; the
tables and the trim stay in theirs; the pending queue holds a block once (R194); the fans are steady only while the
three conditions of steadiness hold; and the preheater's effective duty is the one formed from its request, 0 while
the supply fan does not run. -/
def Obligations.EveryStepKeepsTheSettingsAndTheFanDrive : Prop :=
  ∀ s t : State, s.SettingsOk → s.store.QueueOk → s.drive.TrimOk → s.drive.sup.Ok → s.drive.ext.Ok → s.SteadyOk →
    s.PreheatOk → step s = .next t →
      t.SettingsOk ∧ t.store.QueueOk ∧ t.drive.TrimOk ∧ t.drive.sup.Ok ∧ t.drive.ext.Ok ∧ t.SteadyOk ∧ t.PreheatOk

/-! ### The station bus -/

/-- R53: the marks that the start of a round sets, and the station that a slot polls: the lowest marked station in
ONLINE, or else the lowest marked one in SEEKING or LOST; a slot without a marked station is free. The poll carries
the address, the indicator of R64 and the resolved level, and becomes the exchange in flight (R51, R65), with SBDE active to its
end. The end opens the reply window, in which the start bit of the first character begins the reply, up to 15 ms (R51); that a POLL
whose exchange R58 has made void goes on to its end on the line is the model's reading (assumption 31), and that REPORT_RECEIVED
brings the start bit its choice (assumption 14). R64: the indicator is FAST_BLINK in the stage STOP or with a fan LOCKED; else
SLOW_BLINK with a filter slot empty, or a record DUE or OVERDUE; else STEADY where the station's own boost is ACTIVE, or its source
contributes usefully to an ACTIVE HUMIDITY record; else OFF. -/
def Obligations.PollsGoOutInTheirSlots : Prop :=
  ∀ s : State, s.running = true →
    (∃ b, exec .pollRoundStart s = .next { s with bus := b } ∧ b.exchange = s.bus.exchange
      ∧ ∀ n : StationId, ∃ m, b.stations[n] = { s.bus.stations[n] with marked := m }
          ∧ (m = true ↔ s.bus.stations[n].state = .online
              ∨ (s.bus.stations[n].state = .seeking ∨ s.bus.stations[n].state = .lost)
                ∧ ∀ r ∈ s.bus.stations[n].lastRound, r + 10 ≤ s.clock.seconds))
    ∧ (let first (n : StationId) := s.bus.stations[n].marked = true ∧ s.bus.stations[n].state = .online
      let second (n : StationId) := s.bus.stations[n].marked = true
        ∧ (s.bus.stations[n].state = .seeking ∨ s.bus.stations[n].state = .lost)
      (∀ n : StationId,
        (first n ∧ ∀ m < n, ¬first m) ∨ ((∀ m, ¬first m) ∧ second n ∧ ∀ m < n, ¬second m) →
        exec .pollSlot s =
          .next { s with bus :=
            { stations := s.bus.stations.set n
                { s.bus.stations[n] with
                  marked := false, lastRound := some s.clock.seconds, indicator := s.indicator n }
              exchange := .sending n
                (pollFrame (BitVec.ofNat 8 (n.val + 1))
                  (match s.indicator n with | .off => 0 | .steady => 1 | .slowBlink => 2 | .fastBlink => 3)
                  (BitVec.ofNat 8 s.resolver.view.d)) 0 } })
      ∧ ((∀ n, ¬first n ∧ ¬second n) → exec .pollSlot s = .next s))
    ∧ (∀ n frame t, s.bus.exchange = .sending n frame t →
        exec .pollEnd s = .next { s with bus := { s.bus with exchange := .window n 0 false } })
    ∧ (∀ frame t, s.bus.exchange = .void frame t →
        exec .pollEnd s = .next { s with bus := { s.bus with exchange := .idle } })
    ∧ (s.bus.exchange = .idle ∨ (∃ n t b, s.bus.exchange = .window n t b) → exec .pollEnd s = .next s)
    ∧ (∀ n t b, s.bus.exchange = .window n t b →
        (t ≤ 15 → exec (.reportReceived none) s =
          .next { s with bus := { s.bus with exchange := .window n t true } })
        ∧ (15 < t → exec (.reportReceived none) s = .next s))
    ∧ (s.sbde = true ↔ (∃ n frame t, s.bus.exchange = .sending n frame t) ∨ ∃ frame t, s.bus.exchange = .void frame t)
    ∧ (s.demand.Ok → ∀ n : StationId,
      let fast := s.frost.stage = .stop ∨ ∃ f : FanId, (s.drive.fan f).state = .locked
      let slow := ∃ i : FilterSlot, ∀ r ∈ s.filters.slot i, r.state = .due ∨ r.state = .overdue
      let steady := ∃ r ∈ s.demand.live, r.held = false ∧ (r.origin = .station n
        ∨ r.origin = .humidity ∧ s.humidity.stations[n].state = .rising ∧ s.humidity.stations[n].noDrying = false)
      (s.indicator n = .fastBlink ↔ fast) ∧ (s.indicator n = .slowBlink ↔ ¬fast ∧ slow)
        ∧ (s.indicator n = .steady ↔ ¬fast ∧ ¬slow ∧ steady)
        ∧ (s.indicator n = .off ↔ ¬fast ∧ ¬slow ∧ ¬steady))

/-- R56, R59, R62 and R63: a good reply that is complete in its window (R51: within 15 ms, or within 30 ms where it had begun in
the first 15) is taken whole: the station is ONLINE with the reported kind, no misses and no
hold, its readings VALID where no fault and no absent code is reported; then a press, where the counts differ from the
last good reply's, files, renews or cancels the station's BOOST (R43, R44). -/
def Obligations.GoodRepliesAreTakenWhole : Prop :=
  ∀ (chars : List Byte) (n : StationId) (e : Nat) (begun : Bool) (r : Report) (s : State), s.running = true →
    s.bus.exchange = .window n e begun → e ≤ 15 ∨ begun = true ∧ e ≤ 30 → s.bus.stations[n].state ≠ .unconfigured →
    decodeReport (BitVec.ofNat 8 (n.val + 1)) chars = some r →
      let x := s.bus.stations[n]
      let taken (v : Option Int) : Reading := if r.fault = true ∨ v = none then ⟨.invalid, none⟩ else ⟨.valid, v⟩
      let y : Station :=
        { x with
          state := .online, kind := some r.kind, misses := 0, presses := some (r.short, r.long)
          lastGood := some s.clock.seconds, temperature := taken r.temperature, humidity := taken r.humidity, hold := 0 }
      let tells (a b : Reading) : Prop :=
        b.status = .invalid ∧ a.status ≠ .invalid ∨ a.status = .invalid ∧ b.status = .valid
      let u : State :=
        { s with
          bus := { stations := s.bus.stations.set n y, exchange := .idle }
          notices := { s.notices with flags :=
            s.notices.flags ||| (if x.state ≠ .online then Notice.station.flag else 0)
              ||| (if tells x.temperature y.temperature ∨ tells x.humidity y.humidity then Notice.sensor.flag else 0) } }
      let short := ∃ a b, x.presses = some (a, b) ∧ a ≠ r.short
      let long := ∃ a b, x.presses = some (a, b) ∧ b ≠ r.long
      let run := exec (.reportReceived (some chars)) s
      (¬short → ¬long → run = .next u)
      ∧ (long → s.demand.byOrigin (.station n) .boost = none → run = .next u)
      ∧ (short → ¬long → s.demand.byOrigin (.station n) .boost = none →
          ∃ t, run = .next t ∧ State.RecomputedTo
            { u with
              demand :=
                s.demand.add
                  ⟨.station n, .boost, s.params.nat .boostLevel, none, .minutes (s.params.nat .boostTime), false⟩
                  s.clock.seconds } t)
      ∧ ∀ pre post d, s.demand.Ok → s.demand.live = pre ++ d :: post → d.origin = .station n →
          (long → ∃ t, run = .next t ∧ State.RecomputedTo
            { u with demand :=
              { s.demand with live := pre ++ post, freeList := s.demand.freeList ++ [d.entry] } } t)
          ∧ (short → ¬long → run = .next { u with demand := { s.demand with live := pre ++
              { d with
                duration := .minutes (s.params.nat .boostTime)
                remaining := some (s.params.nat .boostTime * 60) } :: post } })

/-- R51, R57 and R60: where the window is open, a bad reply, a reply that is late (not complete within 30 ms, or not within 15
ms and not begun by then), a bad character and the end of the window are each a miss: one more on the count, up to 255; the
third in a row loses an ONLINE station, with STATION set and its VALID readings held for 600 s. Outside a window nothing is
judged. The hold's end makes HELD readings INVALID and sets SENSOR. -/
def Obligations.MissesLoseAStation : Prop :=
  ∀ s : State, s.running = true →
    (∀ (n : StationId) (e : Nat) (begun : Bool), s.bus.exchange = .window n e begun → ∀ c : Instr,
      c = .replyBadCharacter ∨ c = .replyTimeout
        ∨ (∃ chars, c = .reportReceived (some chars)
            ∧ (decodeReport (BitVec.ofNat 8 (n.val + 1)) chars = none ∨ 30 < e ∨ 15 < e ∧ begun = false)) →
      let x := s.bus.stations[n]
      let m := min 255 (x.misses + 1)
      let kept (r : Reading) : Reading := if r.status = .valid then ⟨.held, r.value⟩ else r
      let after (y : Station) : State :=
        { s with bus := { stations := s.bus.stations.set n y, exchange := .idle } }
      (x.state ≠ .online ∨ m < 3 → exec c s = .next (after { x with misses := m }))
      ∧ (x.state = .online → 3 ≤ m → exec c s =
        .next ((after
          { x with
            state := .lost, misses := m, presses := none
            temperature := kept x.temperature, humidity := kept x.humidity
            hold := if x.temperature.status = .valid ∨ x.humidity.status = .valid then 600 else 0 }).notify .station)))
    ∧ ((∀ n e b, s.bus.exchange ≠ .window n e b) →
      exec .replyBadCharacter s = .next s ∧ exec .replyTimeout s = .next s
        ∧ ∀ chars, exec (.reportReceived chars) s = .next s)
    ∧ ∀ n : StationId,
      let x := s.bus.stations[n]
      let ended (r : Reading) : Reading := if r.status = .held then ⟨.invalid, none⟩ else r
      (x.hold = 0 → exec (.stationHoldExpiry n) s = .next s)
      ∧ (0 < x.hold → exec (.stationHoldExpiry n) s =
        .next ({ s with
          bus :=
            { s.bus with
              stations :=
                s.bus.stations.set n
                  { x with hold := 0, temperature := ended x.temperature, humidity := ended x.humidity } } }.notify
          .sensor))

/-- R51 to R60: whatever a step does, an ONLINE station has fewer than three misses, only a LOST one holds readings,
and only while its hold timer runs; an exchange is in flight with a served station, and a station that is not served
has no mark. -/
def Obligations.EveryStepKeepsTheStations : Prop :=
  ∀ s t : State, s.bus.Ok → step s = .next t → t.bus.Ok

/-! ### The humidity rule -/

/-- R67 and R70 to R77 with R75 and R80: a sample changes its own source by its state, and the HUMIDITY record as the
contributors then ask; the inhibit timer's running out leaves it at 0. A reading that is not usable leaves the source
as after a reset. -/
def Obligations.HumiditySamplesJudgeTheirSource : Prop :=
  ∀ (i : SourceId) (s : State), s.running = true →
    let p := s.params
    let x := s.humidity.source i
    let put (y : Source) : State := { s with humidity := s.humidity.setSource i y }
    let gives (y : Source) : Prop := ∃ t, exec (.humiditySample i) s = .next t ∧ t = { put y with
      demand := t.demand, resolver := t.resolver, drive := t.drive, pressure := t.pressure }
    (∀ t h : Int,
      (s.sourceReading .extract = some (t, h) ↔
        s.sensing.ea.usable = some t ∧ s.sensing.extractRh.usable = some h)
      ∧ ∀ n : StationId,
        let y := s.bus.stations[n]
        let counts (r : Reading) := r.status = .valid ∨ r.status = .held
        (s.sourceReading (.station n) = some (t, h) ↔
          y.kind = some .wet ∧ counts y.temperature ∧ y.temperature.value = some t ∧ counts y.humidity
            ∧ y.humidity.value = some h))
    ∧ (s.sourceReading i = none → gives .afterReset)
    ∧ (∀ t h : Int, s.sourceReading i = some (t, h) →
      let m := min 1000 (max 0 h)
      (x.state = .disarmed →
        let b := x.baseline.getD m
        gives { x with
          last := some (m, t), deviation := none, arm := x.arm + 1, baseline := some (b + symRound (m - b) 4)
          state := if p.nat .humArmSamples ≤ x.arm + 1 then .quiet else .disarmed })
      ∧ ∀ b, x.baseline = some b →
        let e := m - b
        let y : Source := { x with last := some (m, t), deviation := some e }
        let top := p.get .humLevelMax
        let base := p.get .baseLevel
        let level : Int :=
          min top (max (min base top) (base + symRound ((top - base) * e) (2 * p.nat .humRise)))
        let dull : Bool := s.sensing.outdoorMoisture.any fun o => decide ((moisture t m : Int) - o < p.get .dryingMargin)
        let rises : Source := { y with state := .rising, run := 0, level := some level.toNat, noDrying := dull }
        let rebased : Source := { y with baseline := some m, state := .quiet, settle := 0 }
        (x.state = .quiet →
          (p.get .humRise ≤ e → x.inhibit = 0 →
            (s.sensing.night.closed = true ∧ p.get .quietNights = 1 → gives { y with state := .deferred })
            ∧ (s.sensing.night.closed = false ∨ p.get .quietNights ≠ 1 → gives rises))
          ∧ (e < p.get .humRise ∨ x.inhibit ≠ 0 → gives { y with baseline := some (b + symRound e 16) }))
        ∧ (x.state = .rising →
          (e ≤ p.get .humRelease → gives { y with
            state := .quiet, level := none, noDrying := false, inhibit := p.nat .humInhibit * 60, run := 0 })
          ∧ (p.get .humRelease < e → 2 * p.nat .humMaxRun ≤ x.run + 1 → gives { y with
            state := .exhausted, level := none, noDrying := false, settle := 0, run := x.run + 1 })
          ∧ (p.get .humRelease < e → x.run + 1 < 2 * p.nat .humMaxRun →
            gives { y with level := some level.toNat, noDrying := dull, run := x.run + 1 }))
        ∧ (x.state = .exhausted →
          (e ≤ p.get .humRelease → gives rebased)
          ∧ ∀ before u, x.last = some (before, u) → p.get .humRelease < e →
            (((m - before).natAbs : Int) ≤ p.get .humRelease →
              (9 ≤ x.settle → gives rebased) ∧ (x.settle < 9 → gives { y with settle := x.settle + 1 }))
            ∧ (p.get .humRelease < ((m - before).natAbs : Int) → gives { y with settle := 0 }))
        ∧ (x.state = .deferred →
          (e ≤ p.get .humRelease → gives { y with state := .quiet })
          ∧ (p.get .humRelease < e → p.get .quietNights ≠ 0 → gives y)
          ∧ (p.get .humRelease < e → p.get .quietNights = 0 →
            (p.get .humRise ≤ e → gives rises) ∧ (e < p.get .humRise → gives { y with state := .quiet }))))
    ∧ exec (.inhibitTimerExpiry i) s = .next (put { x with inhibit := 0 })

/-- R81 and R82: after a sample the HUMIDITY record follows the contributors. With no source RISING none is live; else
its level is the largest among the contributors whose NO_DRYING is clear, and it is ACTIVE; where all have it set, the
largest of all, and it is HELD. A live record is amended where it stands, a new one is filed, and without a
contributor it is retired; where nothing of this changes, nothing else does. -/
def Obligations.TheHumidityRecordFollowsTheContributors : Prop :=
  ∀ (i : SourceId) (s : State), s.running = true → s.demand.Ok →
    ∃ t, exec (.humiditySample i) s = .next t
      ∧ State.HumidityAlignedTo { s with humidity := s.humidity.setSource i (s.sampleSource i) } t

/-- R68, R75 and R82: whatever a step does, the HUMIDITY record is live exactly while there are contributors, with the
level and the state that they ask for, and a source has a level exactly while it is RISING. -/
def Obligations.EveryStepKeepsTheHumidityRecord : Prop :=
  ∀ s t : State, s.demand.Ok → s.SettingsOk → s.RecordAligned → (∀ i : SourceId, (s.humidity.source i).Ok) →
    step s = .next t → t.RecordAligned ∧ ∀ i : SourceId, (t.humidity.source i).Ok

/-! ### The resolver -/

/-- R89 to R98, with the reasons of R99: what the view holds. Zero in STARTUP, STANDBY and the stage STOP. Else: the newest
ACTIVE HOLD governs, or else the larger of the start level (the smallest ACTIVE SETBACK, or BASE_LEVEL) and the largest ACTIVE
BOOST, with the handle of the oldest record at that level; the level is taken into its limits, but for a HOLD at 0, and then
under the filter caps; the targets follow from it, the frost orders and the availability of the fans; and the extract target
lies within the allowance of the supply target. Each reason stands exactly when its step has changed the value that it names. -/
def Obligations.ResolutionIsBalancedAndCapped : Prop :=
  ∀ s : State,
    let p := s.params
    let v := resolve s
    let active (k : Kind) (r : DemandRecord) := r ∈ s.demand.live ∧ r.kind = k ∧ r.held = false
    let stopped := s.resolver.mode = .startup ∨ s.resolver.mode = .standby ∨ s.frost.stage = .stop
    let out (f : FanId) := (s.drive.fan f).state = .faultRest ∨ (s.drive.fan f).state = .locked
    let reduce := s.frost.windows.reduce = true
    let limits := s.frost.stage = .limit ∨ s.frost.stage = .cycle
    let missing := s.filters.supply = none ∨ s.filters.extract = none
    let overdue := ∃ i r, s.filters.slot i = some r ∧ r.state = .overdue
    v.Balanced
    ∧ v.a = (if reduce then p.nat .defrostAllowance else p.nat .imbalanceLimit)
    ∧ (stopped → v = ⟨0, .zero, 0, 0, 0, v.a, 0, 0, 0, 0⟩)
    ∧ (¬stopped → ∃ asked : Nat,
      (∀ pre r post, s.demand.live = pre ++ r :: post → r.kind = .hold → r.held = false →
        (∀ q ∈ post, ¬active .hold q) → v.source = .hold ∧ v.handle = r.handle ∧ asked = r.level)
      ∧ ((∀ r, ¬active .hold r) → ∃ start : Nat,
          ((∀ r, ¬active .setback r) → start = p.nat .baseLevel)
          ∧ (∀ r, active .setback r → start ≤ r.level ∧ ∃ q, active .setback q ∧ q.level = start)
          ∧ start ≤ asked ∧ (∀ r, active .boost r → r.level ≤ asked)
          ∧ (asked = start ∨ ∃ r, active .boost r ∧ r.level = asked)
          ∧ (v.source = .boost ↔ start < asked)
          ∧ (start < asked → ∃ pre r post, s.demand.live = pre ++ r :: post ∧ active .boost r ∧ r.level = asked
              ∧ (∀ q ∈ pre, active .boost q → q.level ≠ asked) ∧ v.handle = r.handle)
          ∧ (v.source = .setback ↔ asked = start ∧ ∃ r, active .setback r)
          ∧ (v.source = .setback → ∃ pre r post, s.demand.live = pre ++ r :: post ∧ active .setback r
              ∧ r.level = start ∧ (∀ q ∈ pre, active .setback q → q.level ≠ start) ∧ v.handle = r.handle)
          ∧ (v.source = .base ↔ asked = start ∧ ∀ r, ¬active .setback r) ∧ (v.source = .base → v.handle = 0))
      ∧ (let limited := if v.source = .hold ∧ asked = 0 then 0
            else min (p.nat .maxLevel) (max (min (p.nat .minLevel) (p.nat .maxLevel)) asked)
          let capped := if missing then min limited (p.nat .minLevel) else limited
          (overdue → v.d = min capped (p.nat .overdueCap)) ∧ (¬overdue → v.d = capped)
          ∧ (v.reasons.getLsbD 0 = true ↔ asked < limited) ∧ (v.reasons.getLsbD 1 = true ↔ limited < asked)
          ∧ (v.reasons.getLsbD 2 = true ↔ capped < limited) ∧ (v.reasons.getLsbD 3 = true ↔ v.d < capped))
      ∧ v.s0 = roundDiv (v.d * p.nat .nominalFlow) 100 ∧ v.e0 = roundDiv (v.s0 * p.nat .extractRatio) 100
      ∧ (let supply := if reduce then roundDiv (v.s0 * p.nat .defrostSupply) 100
            else if limits then roundDiv (v.s0 * (100 - s.frost.reduction)) 100 else v.s0
          let extract := min (supply + v.a) (max (supply - v.a) v.e0)
          (¬out .sup → ¬out .ext → v.s1 = supply ∧ v.e1 = extract)
          ∧ (out .sup → ¬out .ext → v.s1 = 0 ∧ v.e1 = min extract v.a)
          ∧ (¬out .sup → out .ext → v.s1 = min supply v.a ∧ v.e1 = 0)
          ∧ (out .sup → out .ext → v.s1 = 0 ∧ v.e1 = 0)
          ∧ (v.reasons.getLsbD 4 = true ↔ ¬reduce ∧ limits ∧ supply < v.s0)
          ∧ (v.reasons.getLsbD 6 = true ↔ extract ≠ v.e0))
      ∧ v.preheat = (if v.s1 = 0 then 0 else s.frost.preheat)
      ∧ (v.reasons.getLsbD 5 = true ↔ reduce) ∧ (v.reasons.getLsbD 7 = true ↔ out .sup)
      ∧ (v.reasons.getLsbD 8 = true ↔ out .ext))

/-- R100 to R103 with R135 and R164: SET_MODE refuses a mode other than RUN, STANDBY and COMMISSION with BAD_VALUE. In
STARTUP it replaces the pending mode; naming the present mode it leaves the mode; else it enters the mode named, and
RUN and STANDBY become the stored mode. Leaving COMMISSION puts every output back on AUTO. The entry into STANDBY
withdraws the LINK request, its record ABORTED with the cause STANDBY, and sets the guard to CLEAR, which sets FROST where the
stage was another. The end of start-up enters the pending mode. -/
def Obligations.ModesChange : Prop :=
  ∀ s : State,
    let stores (m : Mode) (u : State) : State :=
      if (m = .run ∨ m = .standby) ∧ s.resolver.stored ≠ m then
        { u with resolver := { u.resolver with stored := m }, store := s.store.change .storedMode }
      else u
    let report (r : Resolver) : List Byte :=
      [r.mode, r.pending, r.stored].map fun m =>
        match m with | .startup => 0 | .run => 1 | .standby => 2 | .commission => 3
    let auto : Drive :=
      if s.resolver.mode = .commission then
        { s.drive with
          sup := { s.drive.sup with source := .auto }, ext := { s.drive.ext with source := .auto }
          preheater := { s.drive.preheater with source := .auto } }
      else s.drive
    let modes (m : Mode) : Resolver := { s.resolver with mode := m, pending := m }
    let enters (m : Mode) (t : State) : Prop :=
      (m ≠ .standby → State.RecomputedTo { s with resolver := modes m, drive := auto } t)
      ∧ (m = .standby →
        let clear := s.frost.stage = .clear
        let link := s.pressure.link.isSome = true
        let g : Frost :=
          { s.frost with
            stage := .clear, reason := if clear then s.frost.reason else .mode, fallback := false
            hold := 0, saturation := 0, ice := 0, stopTimer := 0, reduction := 0, preheat := 0
            counter := 0, windows := .closed, gateResult := none, failed := 0, unjudged := false }
        let record : LinkRecord :=
          if link then { s.pressure.record with state := .aborted, cause := some .standby } else s.pressure.record
        let p : Pressure :=
          { s.pressure with
            link := none, record := record
            phase := if link ∧ ∃ f ∈ s.pressure.phase.flight, f.requester = .link then .free else s.pressure.phase
            frostTimer := if clear then s.pressure.frostTimer
              else if s.frost.baseline.pn0 = none then some (s.params.nat .filterPeriod * 60000) else none }
        let n : Notices :=
          { s.notices with
            flags := s.notices.flags ||| (if clear then 0 else Notice.frost.flag)
              ||| (if link then Notice.measure.flag else 0) }
        State.RecomputedTo { s with resolver := modes m, drive := auto, frost := g, pressure := p, notices := n } t
          ∧ t.pressure.record = record)
    (s.running = true →
      (s.resolver.mode = .startup → ∃ t, exec .startupEnd s = .next t ∧ enters s.resolver.pending t)
      ∧ (s.resolver.mode ≠ .startup → exec .startupEnd s = .next s))
    ∧ (s.answering = true →
      (∀ mode : Byte, mode.toNat = 0 ∨ 4 ≤ mode.toNat → exec (.setMode mode) s = .next (s.respond .badValue []))
      ∧ ∀ (mode : Byte) (m : Mode),
        mode.toNat = 1 ∧ m = .run ∨ mode.toNat = 2 ∧ m = .standby ∨ mode.toNat = 3 ∧ m = .commission →
          ∃ t, exec (.setMode mode) s =
              .next ((stores m t).respond .ok (report (stores m t).resolver))
            ∧ (s.resolver.mode = .startup → t = { s with resolver := { s.resolver with pending := m } })
            ∧ (s.resolver.mode = m → t = s)
            ∧ (s.resolver.mode ≠ .startup → s.resolver.mode ≠ m → enters m t))

/-- R87, R97, R101 and R109: whatever a step does, the view is the resolution of the inputs as they stand and keeps
the two targets within the allowance of each other, the pending mode outside STARTUP is the mode, and each fan's
request is the one formed from its source and the view. -/
def Obligations.EveryStepKeepsTheView : Prop :=
  ∀ s t : State, s.demand.Ok → s.SettingsOk → s.ViewCurrent → s.RequestsCurrent → s.resolver.ModesOk → step s = .next t →
    t.ViewCurrent ∧ t.RequestsCurrent ∧ t.resolver.ModesOk ∧ t.resolver.view.Balanced

/-! ### The pressure channel -/

/-- R139 to R141: MEASURE of another tap is refused with BAD_VALUE, in STARTUP and STANDBY with WRONG_MODE, and with a
LINK request outstanding with BUSY. Else the request is filed and a free channel granted to a requester, and the
answer gives the record's state. CANCEL_MEASURE withdraws an outstanding LINK request, its record ABORTED with the cause
CANCELLED and MEASURE set, and else changes nothing. R126: VSEL1 and VSEL0 show the selector's position while the part runs. -/
def Obligations.MeasureFilesTheLinkRequest : Prop :=
  ∀ s : State,
    (s.running = true → s.vsel =
      match s.pressure.position with
      | .flow => (false, false) | .supFilter => (false, true) | .extFilter => (true, false) | .exch => (true, true))
    ∧ (s.running = false → s.vsel = (false, false))
    ∧ (s.answering = true →
    let busy := s.pressure.record.state = .waiting ∨ s.pressure.record.state = .inProgress
    let stopped := s.resolver.mode = .startup ∨ s.resolver.mode = .standby
    (∀ tap : Byte,
      (4 ≤ tap.toNat → exec (.measure tap) s = .next (s.respond .badValue []))
      ∧ (tap.toNat < 4 → stopped → exec (.measure tap) s = .next (s.respond .wrongMode []))
      ∧ (tap.toNat < 4 → ¬stopped → busy → exec (.measure tap) s = .next (s.respond .busy []))
      ∧ ∀ x : Tap, [Tap.flow, .supFilter, .extFilter, .exch][tap.toNat]? = some x → ¬stopped → ¬busy →
        s.pressure.RecordOk →
          let filed : Pressure :=
            { s.pressure with link := some ⟨x, none, false⟩, record := ⟨.waiting, some x, none, none⟩ }
          ∃ q : Pressure, filed.FollowedBy q
            ∧ exec (.measure tap) s =
              .next ({ s with pressure := q }.respond .ok [if q.record.state = LinkState.waiting then 1 else 2])
            ∧ (s.pressure.phase ≠ .free → q = filed)
            ∧ (s.pressure.phase = .free → State.GrantedTo { s with pressure := filed } q ∧ q.phase ≠ .free
                ∧ (s.eligible .frost = false → s.eligible .trim = false →
                    ∃ f, q.phase.flight = some f ∧ f.requester = .link ∧ f.tap = x ∧ q.record.state = .inProgress)))
    ∧ (¬busy → exec .cancelMeasure s = .next (s.respond .ok []))
    ∧ (busy →
        let freed := s.pressure.phase.flight.any fun f => f.requester = .link
        let emptied : Pressure :=
          { s.pressure with
            link := none, phase := if freed then .free else s.pressure.phase
            record := { s.pressure.record with state := .aborted, cause := some .cancelled } }
        ∃ q : Pressure, emptied.FollowedBy q ∧ q.record = emptied.record
          ∧ (emptied.phase ≠ .free → q = emptied)
          ∧ (emptied.phase = .free → State.GrantedTo { s with pressure := emptied } q)
          ∧ exec .cancelMeasure s = .next (({ s with pressure := q }.notify .measure).respond .ok [])))

/-- R130, R131 and R142 to R147: the settle's end begins the readings. A conversion adds its value, 0 where it is
negative, or the mark OVER from 5000 up; the eighth completes the measurement, and none is taken outside SAMPLE. The
result is the rounded mean, or 5000 with OVER; for FLOW the orifice flow, for the other taps the outcome with the
normalised pressure. It overwrites the tap's entry, reaches its consumer, empties the requester's slot and starts its timer again
(R136 to R138); then the channel is FREE and settles (R131 step 6). R144: a FLOW entry is fresh while it is not OVER, the fans have
stayed steady since its hand-over and 120 s have not passed. R111: a FLOW result that the conditions admit moves the trim; a trim
that changes forms the supply request again, which the fan follows, and what hangs on the drive settles. -/
def Obligations.ReadingsAddUpToAResult : Prop :=
  ∀ s : State, s.running = true →
    (∀ f, s.pressure.phase = .select f →
        exec .settleEnd s = .next { s with pressure := { s.pressure with phase := .sample f } })
    ∧ (s.pressure.phase = .free ∨ (∃ f, s.pressure.phase = .sample f) → exec .settleEnd s = .next s)
    ∧ (s.pressure.phase = .free ∨ (∃ f, s.pressure.phase = .select f) →
        ∀ c : Int, exec (.reading c) s = .next s)
    ∧ (∀ n : Nat, n < 4294967296 → isqrt n * isqrt n ≤ n ∧ n < (isqrt n + 1) * (isqrt n + 1))
    ∧ (∀ q : Nat, s.freshFlow = some q ↔
        ∃ e, s.pressure.flowEntry = some e ∧ e.result.body = .orifice q ∧ e.result.overRange = false
          ∧ s.pressure.fresh = true ∧ s.clock.seconds - e.second ≤ 120)
    ∧ s.supplyEstimate = roundDiv (CalTable.flowAt s.drive.cals.sup s.drive.sup.commanded * 1000) s.drive.trim
    ∧ s.extractEstimate = CalTable.flowAt s.drive.cals.ext s.drive.ext.commanded
    ∧ ∀ (f : Flight) (c : Int), s.pressure.phase = .sample f →
      let g : Flight :=
        { f with
          count := f.count + 1, sum := f.sum + (if 5000 ≤ c then 0 else c.toNat)
          overRange := f.overRange || decide (5000 ≤ c) }
      (f.count < 7 → exec (.reading c) s = .next { s with pressure := { s.pressure with phase := .sample g } })
      ∧ (7 ≤ f.count →
        let value := if g.overRange then 5000 else roundDiv g.sum 8
        let nominal := s.params.nat .nominalFlow
        ∃ (t : State) (body : ResultBody), exec (.reading c) s = .next t
          ∧ t.pressure.entry f.tap = some ⟨⟨value, g.overRange, body⟩, f.requester, s.clock.seconds⟩
          ∧ (∀ x, x ≠ f.tap → t.pressure.entry x = s.pressure.entry x)
          ∧ t.pressure.request f.requester = none
          ∧ (f.tap = .flow → body = .orifice (roundDiv (s.params.nat .flowK * isqrt (1000 * value)) 1000))
          ∧ (f.tap ≠ .flow → ∃ outcome flow estimate pn, body = .element outcome flow estimate pn
              ∧ (f.tap ≠ .supFilter → flow = s.extractEstimate ∧ estimate = true)
              ∧ (f.tap = .supFilter →
                  (s.freshFlow = none → flow = s.supplyEstimate ∧ estimate = true)
                  ∧ ∀ q, s.freshFlow = some q → flow = q ∧ estimate = false)
              ∧ (g.overRange = true → outcome = .overRange ∧ pn = none)
              ∧ (g.overRange = false → flow < roundDiv (nominal * 30) 100 → outcome = .lowFlow ∧ pn = none)
              ∧ (g.overRange = false → roundDiv (nominal * 30) 100 ≤ flow →
                  outcome = .valid ∧ pn = some (min 65535 (roundDiv (value * nominal ^ 2) (flow ^ 2)))))
          ∧ (t.params = s.params ∧ t.sensing = s.sensing ∧ t.demand = s.demand ∧ t.bus = s.bus
              ∧ t.humidity = s.humidity ∧ t.link = s.link ∧ t.clock = s.clock ∧ t.hours = s.hours)
          ∧ (let learnt := t.frost.baseline.pn0.isSome = true
             let written : Pressure :=
               { s.pressure.setEntry f.tap ⟨⟨value, g.overRange, body⟩, f.requester, s.clock.seconds⟩ with phase := .free }
             let emptied : Pressure :=
               match f.requester with
               | .frost =>
                 { written with
                   frost := none
                   frostTimer :=
                     match s.frost.stage with
                     | .clear => if learnt then none else some (s.params.nat .filterPeriod * 60000)
                     | .watch => some 60000
                     | .limit => some 20000
                     | .cycle | .stop => none }
               | .trim => { written with trim := none, trimTimer := some (s.params.nat .flowPeriod * 1000) }
               | .link =>
                 { written with
                   link := none
                   record := { s.pressure.record with state := .done, result := some ⟨value, g.overRange, body⟩ } }
               | .filter =>
                 { written with
                   filter := none, filterTimer := some (s.params.nat .filterPeriod * 60000), lastSlot := f.slot }
             let done : State :=
               { s with
                 pressure := emptied
                 notices := if f.requester = .link then s.notices.set .measure else s.notices }
             (f.requester = .link → t.pressure.record = emptied.record ∧ t.notices = s.notices.set .measure)
             ∧ (f.tap = .flow →
               let q := roundDiv (s.params.nat .flowK * isqrt (1000 * value)) 1000
               let s1 := s.resolver.view.s1
               let off := max q s1 - min q s1
               let moves := s.drive.steady = true ∧ s.drive.sup.state = .running ∧ s.drive.sup.source = .auto
                 ∧ 0 < s1 ∧ g.overRange = false ∧ 0 < q ∧ roundDiv (s1 * 2) 100 < off
               let trim := if moves then min 1250 (max 750 (roundDiv (s.drive.trim * (s1 + q)) (2 * q))) else s.drive.trim
               t.drive.trim = trim ∧ t.pressure.fresh = t.drive.steady
               ∧ (trim = s.drive.trim →
                 let kept : State := { done with pressure := { emptied with fresh := s.drive.steady } }
                 t = { kept with pressure := t.pressure } ∧ kept.ChannelSettledTo t.pressure)
               ∧ (trim ≠ s.drive.trim →
                 let trimmed : State :=
                   { done with drive := { s.drive with trim := trim }, pressure := { emptied with fresh := true } }
                 trimmed.DriveMovedTo t ∧ trimmed.DriveSettledTo t ∧ t.drive.ext = s.drive.ext
                 ∧ t.drive.sup =
                   Fan.follow s.drive.sup (trimmed.fanRequest .sup) (s.firstDuty .sup) s.params.slewInterval))
             ∧ (f.tap ≠ .flow → f.requester = .trim ∨ f.requester = .link →
                 t = { done with pressure := t.pressure } ∧ done.ChannelSettledTo t.pressure)
             ∧ (f.tap ≠ .flow → f.requester = .frost →
                 let judged : State :=
                   { done with
                     frost := t.frost
                     store := if t.frost.baseline = s.frost.baseline then s.store
                       else s.store.change .exchangerBaseline }
                 t = { judged with pressure := t.pressure } ∧ judged.ChannelSettledTo t.pressure)
             ∧ (f.tap ≠ .flow → f.requester = .filter → (∀ i, f.slot = some i → s.filters.slot i = none) →
                 t = { done with pressure := t.pressure } ∧ done.ChannelSettledTo t.pressure)
             ∧ ∀ i, f.requester = .filter → f.slot = some i → f.tap ≠ .flow → t.frost = s.frost
                 ∧ ∀ j, j ≠ i → t.filters.slot j = s.filters.slot j))

/-- R132: the four gates. FROST: the extract fan RUNNING, and in CYCLE the GATE window, elsewhere steadiness; TRIM: steadiness, the
supply fan RUNNING and no REDUCE window; FILTER: steadiness, both fans RUNNING and the stage CLEAR or WATCH; LINK: always open. A
requester is eligible with a WAITING request and an open gate. R133 and R136 to R138: a running request timer that runs out files
its request into an empty slot and stops, and the channel settles: a measurement whose gate has closed is aborted (R134), and a
free channel is granted to the first eligible requester in the order FROST, TRIM,
LINK, FILTER, but to another than FROST after two grants to FROST in a row. FILTER alternates between fitted slots,
and its timer starts again where none is fitted. A stopped timer does not run out. -/
def Obligations.RequestTimersFileTheirRequests : Prop :=
  ∀ s : State,
    let p := s.pressure
    let runs (f : FanId) := (s.drive.fan f).state = .running
    (s.gateOpen .frost = true ↔
      runs .ext ∧ (s.frost.stage = .cycle → s.frost.windows.gate = true)
        ∧ (s.frost.stage ≠ .cycle → s.drive.steady = true))
    ∧ (s.gateOpen .trim = true ↔ s.drive.steady = true ∧ runs .sup ∧ s.frost.windows.reduce = false)
    ∧ (s.gateOpen .filter = true ↔
        s.drive.steady = true ∧ runs .sup ∧ runs .ext ∧ (s.frost.stage = .clear ∨ s.frost.stage = .watch))
    ∧ s.gateOpen .link = true
    ∧ (∀ x, s.eligible x = true ↔ (∃ q, p.request x = some q ∧ q.granted = false) ∧ s.gateOpen x = true)
    ∧ (s.running = true →
      let ends (q : Pressure) (c : Instr) :=
        ∃ r : Pressure, exec c s = .next { s with pressure := r } ∧ State.ChannelSettledTo { s with pressure := q } r
          ∧ (q.phase = .free →
            let u : State := { s with pressure := q }
            let before : Requester → List Requester
              | .frost => [] | .trim => [.frost] | .link => [.frost, .trim] | .filter => [.frost, .trim, .link]
            (∀ x, u.eligible x = true → (∀ y ∈ before x, u.eligible y = false) → q.history ≠ [.frost, .frost] →
              ∃ f, r.phase.flight = some f ∧ f.requester = x)
            ∧ (∀ x, u.eligible x = true → x ≠ .frost → (∀ y ∈ before x, y ≠ .frost → u.eligible y = false) →
              q.history = [.frost, .frost] → ∃ f, r.phase.flight = some f ∧ f.requester = x)
            ∧ (u.eligible .frost = true → (∀ y, y ≠ .frost → u.eligible y = false) →
              ∃ f, r.phase.flight = some f ∧ f.requester = .frost)
            ∧ ((∀ x, u.eligible x = false) → r = q))
      let filed (o : Option Request) (x : Tap) (slot : Option FilterSlot) : Option Request :=
        match o with | some q => some q | none => some ⟨x, slot, false⟩
      (p.trimTimer = none → exec .trimTimerExpiry s = .next s)
      ∧ (p.trimTimer ≠ none → ends { p with trim := filed p.trim .flow none, trimTimer := none } .trimTimerExpiry)
      ∧ (p.frostTimer = none → exec .frostTimerExpiry s = .next s)
      ∧ (p.frostTimer ≠ none → ends { p with frost := filed p.frost .exch none, frostTimer := none } .frostTimerExpiry)
      ∧ (p.filterTimer = none ∨ p.filter ≠ none → exec .filterTimerExpiry s = .next s)
      ∧ (p.filterTimer ≠ none → p.filter = none →
        (∀ i : FilterSlot, (s.filters.slot i).isSome = true →
            (∀ j, j ≠ i → s.filters.slot j = none ∨ p.lastSlot = some j ∨ (p.lastSlot = none ∧ i = .supply)) →
            ends { p with filter := some ⟨i.tap, some i, false⟩, filterTimer := none } .filterTimerExpiry)
        ∧ ((∀ i, s.filters.slot i = none) → exec .filterTimerExpiry s =
            .next { s with pressure := { p with filterTimer := some (s.params.nat .filterPeriod * 60000) } })))

/-- R128, R130, R132, R133 and R139: whatever a step does, a request is GRANTED exactly while its measurement is in
flight on its tap and slot, the LINK record follows its request, the requesters ask for their own taps, and a
measurement in flight has fewer than eight readings. -/
def Obligations.EveryStepKeepsThePressureChannel : Prop :=
  ∀ s t : State, s.pressure.Ok → step s = .next t → t.pressure.Ok

/-! ### The frost guard -/

/-- R149 to R156: an evaluation forms Tf and m, which is all it does in STARTUP and STANDBY. With a margin it ends
FALLBACK, updates the counts, makes at most one change of stage, with FROST set, and forms the orders. OA at or below
STOP_OA stops from every stage, before the stage's own transitions. The saturation count reads the orders as they stood after the
previous evaluation, which every evaluation keeps for the next. The model's readings: a STOP with the reason OUTDOOR stays
(assumption 20), the counts are cleared and then counted where FALLBACK ends (assumption 22), and FROST_REDUCE_MAX and
PREHEAT_FITTED are those in force at the evaluation, an earlier reduction at its end counting on after a fitting (assumption 40). -/
def Obligations.FrostEvaluationsMoveTheStage : Prop :=
  ∀ s : State, s.running = true →
    let p := s.params
    let tf : Int := match s.sensing.dewPoint with | some d => min d 0 | none => 0
    let read (m : Option Int) : Frost := { s.frost with tf := some tf, margin := m }
    let g := s.frost
    (s.resolver.mode = .startup ∨ s.resolver.mode = .standby →
      exec .frostEvaluation s = .next { s with frost :=
        { read (s.sensing.eha.usable.map fun t => t - tf) with
          priorReduction := g.reduction, priorPreheat := g.preheat } })
    ∧ ∀ eha : Int, s.sensing.eha.usable = some eha → s.resolver.mode = .run ∨ s.resolver.mode = .commission →
      let m := eha - tf
      let oa := s.sensing.oa.usable
      let cold := ∃ t ∈ oa, t ≤ p.get .stopOa
      let fitted := p.get .preheatFitted = 1
      let short := p.get .frostLimit - m
      let cut := if fitted then 0 else
        (min (p.get .frostReduceMax) (max 0 (symRound (p.get .frostReduceGain * short) 10))).toNat
      let hold := if g.fallback then 0 else g.hold
      let held (c : Bool) (top : Nat) := if c then min top (hold + 1) else 0
      let atEnd := g.priorReduction = p.nat .frostReduceMax ∨ (fitted ∧ g.priorPreheat = 100)
      let g1 : Frost :=
        { read (some m) with
          fallback := false
          hold := match g.stage with
            | .watch => held (decide (p.get .frostWatch + 15 ≤ m)) 60
            | .limit => held (decide (p.get .frostLimit + 10 ≤ m)) 30
            | .stop => if g.reason = .cold then held (oa.any fun t => p.get .stopOa + 30 ≤ t) 180 else 0
            | .clear | .cycle => 0
          saturation := if g.stage = .limit ∧ atEnd ∧ m ≤ 0 then
            min 180 ((if g.fallback then 0 else g.saturation) + 1) else 0
          ice := if g.fallback then 0 else g.ice }
      let warm (window : Bool) : Nat :=
        if ¬fitted then 0 else if window then 100
        else (min 100 (max 0 (symRound (p.get .preheatGain * short) 10))).toNat
      let enters (st : Stage) (r : Reason) : Frost :=
        let now := p.cycleTimes
        let w := now.windowsAt 1
        { g1 with
          stage := st, reason := r, hold := 0, saturation := 0, ice := 0, stopTimer := 0, failed := 0
          gateResult := none, unjudged := false
          counter := if st = .cycle then 1 else 0
          latched := if st = .cycle then now else g1.latched
          windows := if st = .cycle then w else .closed
          reduction := if st = .limit ∨ st = .cycle then cut else 0
          preheat := if st = .limit then warm false else if st = .cycle then warm w.preheat else 0 }
      let stays : Frost :=
        { g1 with
          reduction := if g.stage = .limit ∨ g.stage = .cycle then cut else 0
          preheat := if g.stage = .limit then warm false else if g.stage = .cycle then warm g.windows.preheat else 0 }
      let becomes (f : Frost) :=
        ∃ t, exec .frostEvaluation s = .next t
          ∧ t.frost = { f with priorReduction := f.reduction, priorPreheat := f.preheat }
          ∧ s.FrostHandedTo t.frost (f.windows.gate && !g.windows.gate) t
      (cold → g.stage ≠ .stop → becomes (enters .stop .cold))
      ∧ (cold → g.stage = .stop → g.reason ≠ .cold →
          becomes { stays with reason := .cold, hold := 0, saturation := 0, ice := 0, stopTimer := 0 })
      ∧ (g.stage = .clear → ¬cold →
          (m ≤ p.get .frostWatch → becomes (enters .watch .margin)) ∧ (p.get .frostWatch < m → becomes stays))
      ∧ (g.stage = .watch → ¬cold →
          (m ≤ p.get .frostLimit → becomes (enters .limit .margin))
          ∧ (p.get .frostLimit < m → 60 ≤ g1.hold → becomes (enters .clear .margin))
          ∧ (p.get .frostLimit < m → g1.hold < 60 → becomes stays))
      ∧ (g.stage = .limit → ¬cold →
          (2 ≤ g1.ice → becomes (enters .cycle .ice))
          ∧ (g1.ice < 2 → 180 ≤ g1.saturation → becomes (enters .cycle .saturated))
          ∧ (g1.ice < 2 → g1.saturation < 180 → 30 ≤ g1.hold → becomes (enters .watch .margin))
          ∧ (g1.ice < 2 → g1.saturation < 180 → g1.hold < 30 → becomes stays))
      ∧ (g.stage = .cycle → ¬cold → becomes stays)
      ∧ (g.stage = .stop → g.reason = .cold →
          (180 ≤ g1.hold → becomes (enters .limit .warmed)) ∧ (g1.hold < 180 → becomes stays))
      ∧ (g.stage = .stop → g.reason ≠ .cold → ¬cold →
          (g.reason = .iced → 3600 ≤ g.stopTimer → becomes (enters .cycle .retry))
          ∧ (g.reason ≠ .iced ∨ g.stopTimer < 3600 → becomes stays))

/-- R162 and R163, with R149 and R155: without a margin an evaluation in RUN or COMMISSION forms Tf, sets FALLBACK and clears the
counts. Outside CYCLE the stage becomes the one that OA gives, with the reason OUTDOOR where it is another; in CYCLE only STOP is
taken, and the cycle is unjudged. A change of stage clears the stop timer and the failed count, and starts a cycle or ends it. The
orders are those of the row, and the PREHEAT window's. -/
def Obligations.FallbackSetsTheStageFromOutdoors : Prop :=
  ∀ s : State, s.running = true → s.sensing.eha.usable = none → s.resolver.mode = .run ∨ s.resolver.mode = .commission →
    let p := s.params
    let g := s.frost
    let oa := s.sensing.oa.usable
    let row : Stage :=
      match oa with
      | none => .cycle
      | some t =>
        if t ≤ p.get .stopOa then .stop else if t ≤ -150 then .cycle else if t ≤ -50 then .limit
        else if t ≤ 0 then .watch else .clear
    let tf : Int := match s.sensing.dewPoint with | some d => min d 0 | none => 0
    let limits := row = .limit ∨ row = .cycle
    let fitted := p.get .preheatFitted = 1
    let cut := if limits ∧ ¬fitted then roundDiv (p.nat .frostReduceMax) 2 else 0
    let warm (window : Bool) : Nat := if fitted ∧ window = true then 100 else if limits ∧ fitted then 50 else 0
    let read : Frost :=
      { g with tf := some tf, margin := none, fallback := true, hold := 0, saturation := 0, ice := 0 }
    let becomes (f : Frost) :=
      ∃ t, exec .frostEvaluation s = .next t
        ∧ t.frost = { f with priorReduction := f.reduction, priorPreheat := f.preheat }
        ∧ s.FrostHandedTo t.frost (f.windows.gate && !g.windows.gate) t
    let enters (r : Reason) : Frost :=
      let now := p.cycleTimes
      let w := now.windowsAt 1
      { read with
        stage := row, reason := r, stopTimer := 0, failed := 0, gateResult := none
        unjudged := decide (row = .cycle), counter := if row = .cycle then 1 else 0
        latched := if row = .cycle then now else g.latched, windows := if row = .cycle then w else .closed
        reduction := cut, preheat := warm (decide (row = .cycle) && w.preheat) }
    (row ≠ g.stage → g.stage ≠ .cycle ∨ row = .stop → becomes (enters .outdoor))
    ∧ (row = g.stage → g.stage ≠ .cycle → becomes { read with reduction := cut, preheat := warm false })
    ∧ (g.stage = .cycle → row ≠ .stop →
        becomes { read with unjudged := true, reduction := cut, preheat := warm g.windows.preheat })

/-- R157 to R161 and R163: the windows are active from their start to their end. An edge moves the counter to the next
value at which one opens or closes. A wrap judges the cycle: thawed to LIMIT, failed four times to STOP, or the next
cycle with the failed count that R160 gives; in FALLBACK the outdoor table decides, and an unjudged cycle is followed
by the next. RELEARN_EXCHANGER clears the baseline, the ice count, the last ratio and a cycle's gate result. The model's readings:
WINDOW_EDGE moves the counter to the edge (assumption 19); a wrap that leaves CYCLE in FALLBACK clears the failed count (assumption
23); at a wrap into the next cycle the windows first close, and the gates are judged, and then open (assumption 18), and at one
that leaves CYCLE the gates are judged once, after it (assumption 39); the row at an edge in FALLBACK is that of OA at the edge
(assumption 41); and the gate result that RELEARN_EXCHANGER clears may be OVER (assumption 44). -/
def Obligations.CyclesRunAndAreJudged : Prop :=
  ∀ s : State,
    let p := s.params
    let g := s.frost
    let oa := s.sensing.oa.usable
    (∀ (c : CycleTimes) (n : Nat), c.windowsAt n =
      ⟨decide (c.preheatStart ≤ n ∧ n < c.preheatEnd), decide (c.reduceStart ≤ n ∧ n < c.reduceEnd),
        decide (c.gateStart ≤ n ∧ n < c.gateEnd)⟩)
    ∧ (s.running = true →
      let moved (c : Instr) (t : State) :=
        exec c s = .next t ∧ s.FrostHandedTo t.frost (t.frost.windows.gate && !g.windows.gate) t
      (g.stage ≠ .cycle → exec .windowEdge s = .next s ∧ exec .cycleWrap s = .next s)
      ∧ (g.stage = .cycle →
        (∀ n, g.counter < n → n ≤ g.latched.limit → g.latched.windowsAt n ≠ g.latched.windowsAt g.counter →
          (∀ k, g.counter < k → k < n → g.latched.windowsAt k = g.latched.windowsAt g.counter) →
          let w := g.latched.windowsAt n
          ∃ t, moved .windowEdge t
            ∧ t.frost = { g with
                counter := n, windows := w, reduction := t.frost.reduction, preheat := t.frost.preheat }
            ∧ (w.preheat = g.windows.preheat → t.frost.reduction = g.reduction ∧ t.frost.preheat = g.preheat)
            ∧ (w.preheat ≠ g.windows.preheat → t.frost.OrdersFormed p oa))
        ∧ ((∀ n, g.counter < n → n ≤ g.latched.limit → g.latched.windowsAt n = g.latched.windowsAt g.counter) →
          exec .windowEdge s = .next s)
        ∧ (let goesOn (failed : Nat) := ∃ (q : Pressure) (t : State),
            let shut : State := { s with frost := { g with windows := .closed } }
            let next := p.cycleTimes.windowsAt 1
            exec .cycleWrap s = .next t
            ∧ (∀ f, s.pressure.phase.flight = some f → shut.gateOpen f.requester = false →
                q = { s.pressure.setRequest f.requester
                  ((s.pressure.request f.requester).map fun r => { r with granted := false }) with phase := .free })
            ∧ (¬(∃ f, s.pressure.phase.flight = some f ∧ shut.gateOpen f.requester = false) → q = s.pressure)
            ∧ State.FrostHandedTo { s with pressure := q } t.frost next.gate t
            ∧ t.frost = { g with
                failed := failed, latched := p.cycleTimes, counter := 1, windows := next
                gateResult := none, unjudged := g.fallback
                reduction := t.frost.reduction, preheat := t.frost.preheat }
            ∧ (g.windows.preheat = false ∧ next.preheat = false →
                t.frost.reduction = g.reduction ∧ t.frost.preheat = g.preheat)
            ∧ (g.windows.preheat = true ∨ next.preheat = true → t.frost.OrdersFormed p oa)
           let leaves (st : Stage) (r : Reason) (failed : Nat) := ∃ t, moved .cycleWrap t
            ∧ t.frost = { g with
                stage := st, reason := r, failed := failed, hold := 0, saturation := 0, ice := 0, stopTimer := 0
                counter := 0, windows := .closed, gateResult := none, unjudged := false
                reduction := t.frost.reduction, preheat := t.frost.preheat }
            ∧ t.frost.OrdersFormed p oa
           let failing := (if 4 ≤ g.failed + 1 then leaves .stop .iced 4 else goesOn (g.failed + 1))
           (g.fallback = false → g.unjudged = false →
              (g.gateResult = some .overRange → failing)
              ∧ (∀ n, g.gateResult = some (.ratio n) → p.nat .clearRatio < n → failing)
              ∧ (∀ n m, g.gateResult = some (.ratio n) → n ≤ p.nat .clearRatio → g.margin = some m →
                  (p.get .frostLimit ≤ m → leaves .limit .thawed 0) ∧ (m < p.get .frostLimit → goesOn 0))
              ∧ (∀ m, g.gateResult = none → g.margin = some m →
                  (p.get .frostLimit + 10 ≤ m → leaves .limit .thawed 0)
                  ∧ (m < p.get .frostLimit + 10 → goesOn g.failed)))
           ∧ (g.fallback = false → g.unjudged = true → goesOn g.failed)
           ∧ (g.fallback = true →
              let row : Stage :=
                match oa with
                | none => .cycle
                | some t =>
                  if t ≤ p.get .stopOa then .stop else if t ≤ -150 then .cycle else if t ≤ -50 then .limit
                  else if t ≤ 0 then .watch else .clear
              (row = .cycle → goesOn g.failed) ∧ (row ≠ .cycle → leaves row .outdoor 0)))))
    ∧ (s.answering = true →
      ∃ q : Pressure, exec .relearnExchanger s = .next ({ s with
          frost := { g with baseline := ⟨0, 0, none⟩, ice := 0, lastRatio := none, gateResult := none }, pressure := q
          store := s.store.change .exchangerBaseline }.respond .ok [])
        ∧ q = { s.pressure with frostTimer := q.frostTimer }
        ∧ (g.stage = .clear → g.baseline.pn0 ≠ none → q.frostTimer = some (p.nat .filterPeriod * 60000))
        ∧ (g.stage ≠ .clear ∨ g.baseline.pn0 = none → q.frostTimer = s.pressure.frostTimer))

/-- R159, R165, R166, R174 and R175: a completed FROST measurement reaches the guard. It shows a ratio where the
baseline is LEARNT, and OVER in any case; in LIMIT that moves the ice count, in CYCLE it is the gate result. A VALID
result in CLEAR or WATCH with steady fans is learnt while the baseline is LEARNING. A completed FILTER measurement
reaches the record of its slot, which takes a VALID result, learning it where it has no baseline, and is then
evaluated. Its advance sets FILTER and one into OVERDUE recomputes (R178), a changed record but for last valid changes the filter
block (R181), and its request's slot is emptied, the timer started again and the channel freed (R131). That an OVER sets the gate
result after RELEARN_EXCHANGER too is the model's choice (assumption 50). -/
def Obligations.ResultsReachTheirConsumers : Prop :=
  ∀ (s : State) (f : Flight) (c : Int), s.running = true → s.pressure.phase = .sample f → 7 ≤ f.count → f.tap ≠ .flow →
    ∃ (t : State) (value : Nat) (high : Bool) (outcome : MeasureOutcome) (flow : Nat) (estimate : Bool)
      (pn : Option Nat), exec (.reading c) s = .next t
      ∧ t.pressure.entry f.tap =
        some ⟨⟨value, high, .element outcome flow estimate pn⟩, f.requester, s.clock.seconds⟩
      ∧ (f.requester = .frost →
        let g := s.frost
        let shows (x : RatioResult) (icy : Prop) :=
          t.frost = { g with lastRatio := some x, ice := t.frost.ice, gateResult := t.frost.gateResult }
            ∧ (g.stage = .limit → icy → t.frost.ice = min 2 (g.ice + 1))
            ∧ (g.stage = .limit → ¬icy → t.frost.ice = 0) ∧ (g.stage ≠ .limit → t.frost.ice = g.ice)
            ∧ t.frost.gateResult = if g.stage = .cycle then some x else g.gateResult
        (outcome = .lowFlow → t.frost = g) ∧ (outcome = .overRange → shows .overRange True)
        ∧ (∀ n n0, outcome = .valid → pn = some n → g.baseline.pn0 = some n0 →
            let ratio := min 999 (roundDiv (100 * n) n0)
            shows (.ratio ratio) (s.params.nat .iceRatio ≤ ratio))
        ∧ (∀ n, outcome = .valid → pn = some n → g.baseline.pn0 = none →
            let learns := (g.stage = .clear ∨ g.stage = .watch) ∧ s.drive.steady = true
            let b := g.baseline
            (¬learns → t.frost = g)
            ∧ (learns → t.store = s.store.change .exchangerBaseline ∧ t.frost = { g with baseline :=
                ⟨b.count + 1, b.sum + n,
                  if b.count + 1 < 8 then none else some (max 10 (roundDiv (b.sum + n) 8))⟩ })))
      ∧ ∀ i r, f.requester = .filter → f.slot = some i → s.filters.slot i = some r →
        ∃ q, t.filters.slot i = some q
          ∧ (let entry : TapEntry :=
              ⟨⟨value, high, .element outcome flow estimate pn⟩, f.requester, s.clock.seconds⟩
            let done : State :=
              { s with
                filters := s.filters.setSlot i (some q)
                notices := if q.state = r.state then s.notices else s.notices.set .filter
                store := if { q with lastValid := none } = { r with lastValid := none } then s.store
                  else s.store.change .filterRecords
                pressure :=
                  { s.pressure.setEntry f.tap entry with
                    filter := none, phase := .free, lastSlot := some i
                    filterTimer := some (s.params.nat .filterPeriod * 60000) } }
            (q.state = .overdue ∧ r.state ≠ .overdue → done.RecomputedTo t)
            ∧ (¬(q.state = .overdue ∧ r.state ≠ .overdue) →
                t = { done with pressure := t.pressure } ∧ done.ChannelSettledTo t.pressure))
          ∧ (outcome = .lowFlow → FilterRecord.AdvancedTo s.params s.hours false r q)
          ∧ (outcome = .overRange → FilterRecord.AdvancedTo s.params s.hours true r q)
          ∧ ∀ n, outcome = .valid → pn = some n →
            let taken : FilterRecord := { r with latestPn := some n, lastValid := some s.clock.seconds }
            (∀ n0, r.pn0 = some n0 → FilterRecord.AdvancedTo s.params s.hours false
              { taken with latestRatio := some (min 999 (roundDiv (100 * n) n0)) } q)
            ∧ (r.pn0 = none →
              let learnt : FilterRecord :=
                { taken with learnCount := r.learnCount + 1, learnSum := r.learnSum + n }
              (r.learnCount + 1 < 8 → FilterRecord.AdvancedTo s.params s.hours false learnt q)
              ∧ (8 ≤ r.learnCount + 1 →
                let n0 := max 10 (roundDiv (r.learnSum + n) 8)
                FilterRecord.AdvancedTo s.params s.hours false
                  { learnt with
                    pn0 := some n0, origin := some .learnt
                    latestRatio := some (min 999 (roundDiv (100 * n) n0))
                    state := if r.state = .learning then .service else r.state } q))

/-- R148, R156 to R158 and R164: whatever a step does, the counter lies in 1 to the latched limit with its windows
while the stage is CYCLE, and is 0 in every other; counts and orders lie in their ranges; and in STARTUP and STANDBY
the stage is CLEAR without FALLBACK, and no LINK request stands. -/
def Obligations.EveryStepKeepsTheFrostGuard : Prop :=
  ∀ s t : State, s.SettingsOk → s.resolver.ModesOk → s.frost.CycleOk → s.frost.CountsOk → s.StandDownOk →
    step s = .next t → t.frost.CycleOk ∧ t.frost.CountsOk ∧ t.StandDownOk

/-! ### The filter table -/

/-- R171 and R172: FIT_FILTER refuses a slot or grade outside the lists, then a slot that holds a record; else the
slot takes the new record, LEARNING without a baseline and SERVICE with one. RETIRE_FILTER refuses another slot, then
an empty one; else it answers the record as it stood, empties the slot and withdraws the slot's FILTER request. Both
set FILTER and change the filter block, and the resolver recomputes. -/
def Obligations.FiltersAreFittedAndRetired : Prop :=
  ∀ (slot : Byte) (s : State), s.answering = true →
    let after (i : FilterSlot) (r : Option FilterRecord) (p : Pressure) : State :=
      { s with
        filters := s.filters.setSlot i r, notices := s.notices.set .filter, store := s.store.change .filterRecords
        pressure := p }
    (∀ (grade : Byte) (interval baseline : Half),
      (2 ≤ slot.toNat ∨ 3 ≤ grade.toNat →
        exec (.fitFilter slot grade interval baseline) s = .next (s.respond .badValue []))
      ∧ ∀ (i : FilterSlot) (g : Grade), [FilterSlot.supply, .extract][slot.toNat]? = some i →
        [Grade.coarse, .medium, .fine][grade.toNat]? = some g →
          (s.filters.slot i ≠ none →
            exec (.fitFilter slot grade interval baseline) s = .next (s.respond .slotOccupied []))
          ∧ (s.filters.slot i = none →
            let hours := if interval.toNat = 0 then s.params.nat .filterInterval
              else min 8760 (max 720 interval.toNat)
            let r : FilterRecord :=
              { grade := g, fittedAt := s.hours, interval := hours
                pn0 := if baseline.toNat = 0 then none else some (max 10 baseline.toNat)
                origin := if baseline.toNat = 0 then none else some .given
                learnCount := 0, learnSum := 0, latestPn := none, latestRatio := none, volume := 0, litres := 0
                state := if baseline.toNat = 0 then .learning else .service
                causes := 0, lastValid := none }
            let clamped := interval.toNat ≠ 0 ∧ (interval.toNat < 720 ∨ 8760 < interval.toNat)
              ∨ baseline.toNat ≠ 0 ∧ baseline.toNat < 10
            ∃ t, exec (.fitFilter slot grade interval baseline) s =
                .next (t.respond (if clamped then .clamped else .ok) (t.filterReport i))
              ∧ (t.filterReport i).length = 32 ∧ (after i (some r) s.pressure).RecomputedTo t))
    ∧ (2 ≤ slot.toNat → exec (.retireFilter slot) s = .next (s.respond .badValue []))
    ∧ ∀ i : FilterSlot, [FilterSlot.supply, .extract][slot.toNat]? = some i →
      (s.filters.slot i = none → exec (.retireFilter slot) s = .next (s.respond .slotEmpty []))
      ∧ ∀ r, s.filters.slot i = some r →
        let named := ∃ q ∈ s.pressure.filter, q.slot = some i
        let withdrawn : Pressure :=
          { s.pressure with
            filter := none, filterTimer := some (s.params.nat .filterPeriod * 60000)
            phase := if s.pressure.phase.flight.any (fun f => f.requester = .filter) then .free
              else s.pressure.phase }
        ∃ t, exec (.retireFilter slot) s = .next (t.respond .ok (s.filterReport i))
          ∧ (¬named → (after i none s.pressure).RecomputedTo t) ∧ (named → (after i none withdrawn).RecomputedTo t)

/-- R192, R177 and R179: each minute a record's volume grows by six times the flow through it, in litres, the supply's
from a fresh FLOW entry (R144) or else the estimate, and a thousand litres carry a cubic metre. The model's readings: with both
fans stopped nothing is added even where a FLOW entry is fresh (assumption 45), the litres go on at the volume's end (assumption
28), and the hours block becomes pending ahead of the filter block (assumption 48). Each operating hour counts up
to the counter's end, changes the hours and filter blocks, and evaluates each record (R176); an advance sets FILTER
(R178), one into OVERDUE recomputes, and with none into OVERDUE the view, the drive and the channel stay as they are. -/
def Obligations.VolumesAndHoursAccumulate : Prop :=
  ∀ s : State, s.running = true →
    (let added (flow : Nat) (r : FilterRecord) : FilterRecord :=
        { r with
          volume := min 4294967295 (r.volume + (r.litres + flow * 6) / 1000), litres := (r.litres + flow * 6) % 1000 }
      let supply := if s.drive.sup.commanded = 0 ∧ s.drive.ext.commanded = 0 then 0
        else match s.freshFlow with
          | some q => q
          | none => roundDiv (CalTable.flowAt s.drive.cals.sup s.drive.sup.commanded * 1000) s.drive.trim
      let extract := CalTable.flowAt s.drive.cals.ext s.drive.ext.commanded
      exec .volumeAddition s = .next { s with
        filters := { supply := s.filters.supply.map (added supply), extract := s.filters.extract.map (added extract) } })
    ∧ (4294967295 ≤ s.hours → exec .operatingHoursAdvance s = .next s)
    ∧ (s.hours < 4294967295 → ∃ (new : FilterSlot → Option FilterRecord) (t : State),
      let same (i : FilterSlot) := (new i).map FilterRecord.state = (s.filters.slot i).map FilterRecord.state
      let worse (i : FilterSlot) :=
        ∃ r q, s.filters.slot i = some r ∧ new i = some q ∧ r.state ≠ .overdue ∧ q.state = .overdue
      let done (n : Notices) : State :=
        { s with
          hours := s.hours + 1, filters := ⟨new .supply, new .extract⟩, notices := n
          store := (s.store.change .hours).change .filterRecords }
      exec .operatingHoursAdvance s = .next t
      ∧ (∀ i : FilterSlot, s.filters.slot i = none → new i = none)
      ∧ (∀ i r, s.filters.slot i = some r → ∃ q, new i = some q
          ∧ FilterRecord.AdvancedTo s.params (s.hours + 1) false r q)
      ∧ ((∀ i, same i) → t = done s.notices)
      ∧ ((∃ i, ¬same i) → (∀ i, ¬worse i) → t = done (s.notices.set .filter))
      ∧ ((∃ i, worse i) → (done (s.notices.set .filter)).RecomputedTo t))

/-! ### Reset -/

/-- The part after its first reset (assumption 1) meets every invariant that the statements above say each step keeps.
-/
def Obligations.ResetMeetsTheInvariants : Prop :=
  State.reset.pending = [] ∧ State.reset.demand.Ok ∧ State.reset.SettingsOk ∧ State.reset.store.QueueOk
  ∧ (∀ c : AnalogChannel, (State.reset.sensing.channel c).Ok)
  ∧ State.reset.drive.TrimOk ∧ State.reset.drive.sup.Ok ∧ State.reset.drive.ext.Ok
  ∧ State.reset.SteadyOk ∧ State.reset.PreheatOk ∧ State.reset.bus.Ok
  ∧ State.reset.RecordAligned ∧ (∀ i : SourceId, (State.reset.humidity.source i).Ok)
  ∧ State.reset.ViewCurrent ∧ State.reset.RequestsCurrent ∧ State.reset.resolver.ModesOk
  ∧ State.reset.resolver.view.Balanced ∧ State.reset.pressure.Ok
  ∧ State.reset.frost.CycleOk ∧ State.reset.frost.CountsOk ∧ State.reset.StandDownOk
end

