-- ==== Sys2Proof/Laws/Bytes.lean ====
section
/-! SUPPORT. The bytes that fields spell: their number, their value, and the way back (R198, R200). -/

namespace Sys2Proof.Machine

@[simp] theorem bytesOf_length (k n : Nat) : (bytesOf k n).length = k := by
  induction k generalizing n with
  | zero => rfl
  | succ k ih => simp [bytesOf, ih]

/-- The bytes of a number spell it, up to their number. -/
@[simp] theorem natOfBytes_bytesOf (k n : Nat) : natOfBytes (bytesOf k n) = n % 256 ^ k := by
  induction k generalizing n with
  | zero => simp [bytesOf, natOfBytes, Nat.mod_one]
  | succ k ih =>
    have h : (BitVec.ofNat 8 n).toNat = n % 256 := BitVec.toNat_ofNat ..
    rw [bytesOf, natOfBytes, ih, h, Nat.pow_succ', Nat.mod_mul]

@[simp] theorem bytesOfInt_length (k : Nat) (v : Int) : (bytesOfInt k v).length = k := by simp [bytesOfInt]

@[simp] theorem bytesOfHalf_length (h : Half) : (bytesOfHalf h).length = 2 := rfl

@[simp] theorem enumByte_length {α : Type} [DecidableEq α] (members : List α) (x : α) :
    (enumByte members x).length = 1 := by simp [enumByte]

@[simp] theorem temperatureField_length (v : Option Int) : (temperatureField v).length = 2 := by
  cases v <;> simp [temperatureField]

@[simp] theorem quantityField_length (k : Nat) (v : Option Nat) : (quantityField k v).length = k := by
  cases v <;> simp [quantityField]

@[simp] theorem packedField_length (k : Nat) (v : Option Nat) : (packedField k v).length = k := by simp [packedField]

@[simp] theorem ratioField_length (v : Option RatioResult) : (ratioField v).length = 2 := by
  cases v with
  | none => simp [ratioField]
  | some x => cases x <;> simp [ratioField]

@[simp] theorem durationField_length (d : Duration) : (durationField d).length = 2 := by
  cases d <;> simp [durationField]

@[simp] theorem flowField_length (q : Nat) : (flowField q).length = 2 := by simp [flowField]

@[simp] theorem Result.values_length (r : Result) (noPn : Nat) : (r.values noPn).length = 6 := by
  unfold Result.values; split <;> simp

@[simp] theorem Source.report_length (x : Source) : x.report.length = 4 := by simp [Source.report]

/-- Reports of one length in a row. -/
theorem length_flatMap_of_length {α β : Type} (f : α → List β) (n : Nat) (l : List α) (h : ∀ a, (f a).length = n) :
    (l.flatMap f).length = n * l.length := by
  induction l with
  | nil => rfl
  | cons a l ih => simp [h, ih, Nat.mul_add]; omega

@[simp] theorem halfOf_bytes (h : Half) : halfOf (h.extractLsb' 0 8) (h.extractLsb' 8 8) = h := by
  unfold halfOf; ext i hi; simp; grind

@[simp] theorem bytesOfHalf_halfOf (low high : Byte) : bytesOfHalf (halfOf low high) = [low, high] := by
  unfold halfOf bytesOfHalf; simp; constructor <;> (ext i hi; simp; try grind)

@[simp] theorem wordOf_bytes (w : Word) :
    wordOf (w.extractLsb' 0 8) (w.extractLsb' 8 8) (w.extractLsb' 16 8) (w.extractLsb' 24 8) = w := by
  unfold wordOf; ext i hi; simp; grind

@[simp] theorem bytesOfWord_wordOf (b0 b1 b2 b3 : Byte) : bytesOfWord (wordOf b0 b1 b2 b3) = [b0, b1, b2, b3] := by
  unfold wordOf bytesOfWord; simp
  refine ⟨?_, ?_, ?_, ?_⟩ <;> (ext i hi; simp; try grind)

end Sys2Proof.Machine
end

