-- ==== Sys2Proof/Laws/State.lean ====
section
/-! SUPPORT. What each named update of the state does to each field: the field it writes takes its new value, every other
stays. -/

namespace Sys2Proof.Machine

/-! ### State.respond -/

@[simp] theorem State.respond_pending (s : State) (st : Status) (data : List Byte) :
    (s.respond st data).pending = s.pending := rfl
@[simp] theorem State.respond_agenda (s : State) (st : Status) (data : List Byte) :
    (s.respond st data).agenda = s.agenda := rfl
@[simp] theorem State.respond_freeCount (s : State) (st : Status) (data : List Byte) :
    (s.respond st data).freeCount = s.freeCount := rfl
@[simp] theorem State.respond_life (s : State) (st : Status) (data : List Byte) :
    (s.respond st data).life = s.life := rfl
@[simp] theorem State.respond_clock (s : State) (st : Status) (data : List Byte) :
    (s.respond st data).clock = s.clock := rfl
@[simp] theorem State.respond_hours (s : State) (st : Status) (data : List Byte) :
    (s.respond st data).hours = s.hours := rfl
@[simp] theorem State.respond_link (s : State) (st : Status) (data : List Byte) :
    (s.respond st data).link = { s.link with response := ⟨st, data⟩ } := rfl
@[simp] theorem State.respond_notices (s : State) (st : Status) (data : List Byte) :
    (s.respond st data).notices = s.notices := rfl
@[simp] theorem State.respond_params (s : State) (st : Status) (data : List Byte) :
    (s.respond st data).params = s.params := rfl
@[simp] theorem State.respond_sensing (s : State) (st : Status) (data : List Byte) :
    (s.respond st data).sensing = s.sensing := rfl
@[simp] theorem State.respond_demand (s : State) (st : Status) (data : List Byte) :
    (s.respond st data).demand = s.demand := rfl
@[simp] theorem State.respond_bus (s : State) (st : Status) (data : List Byte) :
    (s.respond st data).bus = s.bus := rfl
@[simp] theorem State.respond_humidity (s : State) (st : Status) (data : List Byte) :
    (s.respond st data).humidity = s.humidity := rfl
@[simp] theorem State.respond_resolver (s : State) (st : Status) (data : List Byte) :
    (s.respond st data).resolver = s.resolver := rfl
@[simp] theorem State.respond_drive (s : State) (st : Status) (data : List Byte) :
    (s.respond st data).drive = s.drive := rfl
@[simp] theorem State.respond_pressure (s : State) (st : Status) (data : List Byte) :
    (s.respond st data).pressure = s.pressure := rfl
@[simp] theorem State.respond_frost (s : State) (st : Status) (data : List Byte) :
    (s.respond st data).frost = s.frost := rfl
@[simp] theorem State.respond_filters (s : State) (st : Status) (data : List Byte) :
    (s.respond st data).filters = s.filters := rfl
@[simp] theorem State.respond_store (s : State) (st : Status) (data : List Byte) :
    (s.respond st data).store = s.store := rfl

/-! ### State.notify -/

@[simp] theorem State.notify_pending (s : State) (x : Notice) :
    (s.notify x).pending = s.pending := rfl
@[simp] theorem State.notify_agenda (s : State) (x : Notice) :
    (s.notify x).agenda = s.agenda := rfl
@[simp] theorem State.notify_freeCount (s : State) (x : Notice) :
    (s.notify x).freeCount = s.freeCount := rfl
@[simp] theorem State.notify_life (s : State) (x : Notice) :
    (s.notify x).life = s.life := rfl
@[simp] theorem State.notify_clock (s : State) (x : Notice) :
    (s.notify x).clock = s.clock := rfl
@[simp] theorem State.notify_hours (s : State) (x : Notice) :
    (s.notify x).hours = s.hours := rfl
@[simp] theorem State.notify_link (s : State) (x : Notice) :
    (s.notify x).link = s.link := rfl
@[simp] theorem State.notify_notices (s : State) (x : Notice) :
    (s.notify x).notices = s.notices.set x := rfl
@[simp] theorem State.notify_params (s : State) (x : Notice) :
    (s.notify x).params = s.params := rfl
@[simp] theorem State.notify_sensing (s : State) (x : Notice) :
    (s.notify x).sensing = s.sensing := rfl
@[simp] theorem State.notify_demand (s : State) (x : Notice) :
    (s.notify x).demand = s.demand := rfl
@[simp] theorem State.notify_bus (s : State) (x : Notice) :
    (s.notify x).bus = s.bus := rfl
@[simp] theorem State.notify_humidity (s : State) (x : Notice) :
    (s.notify x).humidity = s.humidity := rfl
@[simp] theorem State.notify_resolver (s : State) (x : Notice) :
    (s.notify x).resolver = s.resolver := rfl
@[simp] theorem State.notify_drive (s : State) (x : Notice) :
    (s.notify x).drive = s.drive := rfl
@[simp] theorem State.notify_pressure (s : State) (x : Notice) :
    (s.notify x).pressure = s.pressure := rfl
@[simp] theorem State.notify_frost (s : State) (x : Notice) :
    (s.notify x).frost = s.frost := rfl
@[simp] theorem State.notify_filters (s : State) (x : Notice) :
    (s.notify x).filters = s.filters := rfl
@[simp] theorem State.notify_store (s : State) (x : Notice) :
    (s.notify x).store = s.store := rfl

/-! ### State.changed -/

@[simp] theorem State.changed_pending (s : State) (b : Block) :
    (s.changed b).pending = s.pending := rfl
@[simp] theorem State.changed_agenda (s : State) (b : Block) :
    (s.changed b).agenda = s.agenda := rfl
@[simp] theorem State.changed_freeCount (s : State) (b : Block) :
    (s.changed b).freeCount = s.freeCount := rfl
@[simp] theorem State.changed_life (s : State) (b : Block) :
    (s.changed b).life = s.life := rfl
@[simp] theorem State.changed_clock (s : State) (b : Block) :
    (s.changed b).clock = s.clock := rfl
@[simp] theorem State.changed_hours (s : State) (b : Block) :
    (s.changed b).hours = s.hours := rfl
@[simp] theorem State.changed_link (s : State) (b : Block) :
    (s.changed b).link = s.link := rfl
@[simp] theorem State.changed_notices (s : State) (b : Block) :
    (s.changed b).notices = s.notices := rfl
@[simp] theorem State.changed_params (s : State) (b : Block) :
    (s.changed b).params = s.params := rfl
@[simp] theorem State.changed_sensing (s : State) (b : Block) :
    (s.changed b).sensing = s.sensing := rfl
@[simp] theorem State.changed_demand (s : State) (b : Block) :
    (s.changed b).demand = s.demand := rfl
@[simp] theorem State.changed_bus (s : State) (b : Block) :
    (s.changed b).bus = s.bus := rfl
@[simp] theorem State.changed_humidity (s : State) (b : Block) :
    (s.changed b).humidity = s.humidity := rfl
@[simp] theorem State.changed_resolver (s : State) (b : Block) :
    (s.changed b).resolver = s.resolver := rfl
@[simp] theorem State.changed_drive (s : State) (b : Block) :
    (s.changed b).drive = s.drive := rfl
@[simp] theorem State.changed_pressure (s : State) (b : Block) :
    (s.changed b).pressure = s.pressure := rfl
@[simp] theorem State.changed_frost (s : State) (b : Block) :
    (s.changed b).frost = s.frost := rfl
@[simp] theorem State.changed_filters (s : State) (b : Block) :
    (s.changed b).filters = s.filters := rfl
@[simp] theorem State.changed_store (s : State) (b : Block) :
    (s.changed b).store = s.store.change b := rfl

/-! ### State.setDemand -/

@[simp] theorem State.setDemand_pending (s : State) (t : DemandTable) :
    (s.setDemand t).pending = s.pending := rfl
@[simp] theorem State.setDemand_agenda (s : State) (t : DemandTable) :
    (s.setDemand t).agenda = s.agenda := rfl
@[simp] theorem State.setDemand_freeCount (s : State) (t : DemandTable) :
    (s.setDemand t).freeCount = s.freeCount := rfl
@[simp] theorem State.setDemand_life (s : State) (t : DemandTable) :
    (s.setDemand t).life = s.life := rfl
@[simp] theorem State.setDemand_clock (s : State) (t : DemandTable) :
    (s.setDemand t).clock = s.clock := rfl
@[simp] theorem State.setDemand_hours (s : State) (t : DemandTable) :
    (s.setDemand t).hours = s.hours := rfl
@[simp] theorem State.setDemand_link (s : State) (t : DemandTable) :
    (s.setDemand t).link = s.link := rfl
@[simp] theorem State.setDemand_notices (s : State) (t : DemandTable) :
    (s.setDemand t).notices = s.notices := rfl
@[simp] theorem State.setDemand_params (s : State) (t : DemandTable) :
    (s.setDemand t).params = s.params := rfl
@[simp] theorem State.setDemand_sensing (s : State) (t : DemandTable) :
    (s.setDemand t).sensing = s.sensing := rfl
@[simp] theorem State.setDemand_demand (s : State) (t : DemandTable) :
    (s.setDemand t).demand = t := rfl
@[simp] theorem State.setDemand_bus (s : State) (t : DemandTable) :
    (s.setDemand t).bus = s.bus := rfl
@[simp] theorem State.setDemand_humidity (s : State) (t : DemandTable) :
    (s.setDemand t).humidity = s.humidity := rfl
@[simp] theorem State.setDemand_resolver (s : State) (t : DemandTable) :
    (s.setDemand t).resolver = s.resolver := rfl
@[simp] theorem State.setDemand_drive (s : State) (t : DemandTable) :
    (s.setDemand t).drive = s.drive := rfl
@[simp] theorem State.setDemand_pressure (s : State) (t : DemandTable) :
    (s.setDemand t).pressure = s.pressure := rfl
@[simp] theorem State.setDemand_frost (s : State) (t : DemandTable) :
    (s.setDemand t).frost = s.frost := rfl
@[simp] theorem State.setDemand_filters (s : State) (t : DemandTable) :
    (s.setDemand t).filters = s.filters := rfl
@[simp] theorem State.setDemand_store (s : State) (t : DemandTable) :
    (s.setDemand t).store = s.store := rfl

/-! ### State.setStation -/

@[simp] theorem State.setStation_pending (s : State) (n : StationId) (x : Station) :
    (s.setStation n x).pending = s.pending := rfl
@[simp] theorem State.setStation_agenda (s : State) (n : StationId) (x : Station) :
    (s.setStation n x).agenda = s.agenda := rfl
@[simp] theorem State.setStation_freeCount (s : State) (n : StationId) (x : Station) :
    (s.setStation n x).freeCount = s.freeCount := rfl
@[simp] theorem State.setStation_life (s : State) (n : StationId) (x : Station) :
    (s.setStation n x).life = s.life := rfl
@[simp] theorem State.setStation_clock (s : State) (n : StationId) (x : Station) :
    (s.setStation n x).clock = s.clock := rfl
@[simp] theorem State.setStation_hours (s : State) (n : StationId) (x : Station) :
    (s.setStation n x).hours = s.hours := rfl
@[simp] theorem State.setStation_link (s : State) (n : StationId) (x : Station) :
    (s.setStation n x).link = s.link := rfl
@[simp] theorem State.setStation_notices (s : State) (n : StationId) (x : Station) :
    (s.setStation n x).notices = s.notices := rfl
@[simp] theorem State.setStation_params (s : State) (n : StationId) (x : Station) :
    (s.setStation n x).params = s.params := rfl
@[simp] theorem State.setStation_sensing (s : State) (n : StationId) (x : Station) :
    (s.setStation n x).sensing = s.sensing := rfl
@[simp] theorem State.setStation_demand (s : State) (n : StationId) (x : Station) :
    (s.setStation n x).demand = s.demand := rfl
@[simp] theorem State.setStation_bus (s : State) (n : StationId) (x : Station) :
    (s.setStation n x).bus = { s.bus with stations := s.bus.stations.set n x } := rfl
@[simp] theorem State.setStation_humidity (s : State) (n : StationId) (x : Station) :
    (s.setStation n x).humidity = s.humidity := rfl
@[simp] theorem State.setStation_resolver (s : State) (n : StationId) (x : Station) :
    (s.setStation n x).resolver = s.resolver := rfl
@[simp] theorem State.setStation_drive (s : State) (n : StationId) (x : Station) :
    (s.setStation n x).drive = s.drive := rfl
@[simp] theorem State.setStation_pressure (s : State) (n : StationId) (x : Station) :
    (s.setStation n x).pressure = s.pressure := rfl
@[simp] theorem State.setStation_frost (s : State) (n : StationId) (x : Station) :
    (s.setStation n x).frost = s.frost := rfl
@[simp] theorem State.setStation_filters (s : State) (n : StationId) (x : Station) :
    (s.setStation n x).filters = s.filters := rfl
@[simp] theorem State.setStation_store (s : State) (n : StationId) (x : Station) :
    (s.setStation n x).store = s.store := rfl

/-! ### State.setExchange -/

@[simp] theorem State.setExchange_pending (s : State) (x : Exchange) :
    (s.setExchange x).pending = s.pending := rfl
@[simp] theorem State.setExchange_agenda (s : State) (x : Exchange) :
    (s.setExchange x).agenda = s.agenda := rfl
@[simp] theorem State.setExchange_freeCount (s : State) (x : Exchange) :
    (s.setExchange x).freeCount = s.freeCount := rfl
@[simp] theorem State.setExchange_life (s : State) (x : Exchange) :
    (s.setExchange x).life = s.life := rfl
@[simp] theorem State.setExchange_clock (s : State) (x : Exchange) :
    (s.setExchange x).clock = s.clock := rfl
@[simp] theorem State.setExchange_hours (s : State) (x : Exchange) :
    (s.setExchange x).hours = s.hours := rfl
@[simp] theorem State.setExchange_link (s : State) (x : Exchange) :
    (s.setExchange x).link = s.link := rfl
@[simp] theorem State.setExchange_notices (s : State) (x : Exchange) :
    (s.setExchange x).notices = s.notices := rfl
@[simp] theorem State.setExchange_params (s : State) (x : Exchange) :
    (s.setExchange x).params = s.params := rfl
@[simp] theorem State.setExchange_sensing (s : State) (x : Exchange) :
    (s.setExchange x).sensing = s.sensing := rfl
@[simp] theorem State.setExchange_demand (s : State) (x : Exchange) :
    (s.setExchange x).demand = s.demand := rfl
@[simp] theorem State.setExchange_bus (s : State) (x : Exchange) :
    (s.setExchange x).bus = { s.bus with exchange := x } := rfl
@[simp] theorem State.setExchange_humidity (s : State) (x : Exchange) :
    (s.setExchange x).humidity = s.humidity := rfl
@[simp] theorem State.setExchange_resolver (s : State) (x : Exchange) :
    (s.setExchange x).resolver = s.resolver := rfl
@[simp] theorem State.setExchange_drive (s : State) (x : Exchange) :
    (s.setExchange x).drive = s.drive := rfl
@[simp] theorem State.setExchange_pressure (s : State) (x : Exchange) :
    (s.setExchange x).pressure = s.pressure := rfl
@[simp] theorem State.setExchange_frost (s : State) (x : Exchange) :
    (s.setExchange x).frost = s.frost := rfl
@[simp] theorem State.setExchange_filters (s : State) (x : Exchange) :
    (s.setExchange x).filters = s.filters := rfl
@[simp] theorem State.setExchange_store (s : State) (x : Exchange) :
    (s.setExchange x).store = s.store := rfl

/-! ### State.setPressure -/

@[simp] theorem State.setPressure_pending (s : State) (p : Pressure) :
    (s.setPressure p).pending = s.pending := rfl
@[simp] theorem State.setPressure_agenda (s : State) (p : Pressure) :
    (s.setPressure p).agenda = s.agenda := rfl
@[simp] theorem State.setPressure_freeCount (s : State) (p : Pressure) :
    (s.setPressure p).freeCount = s.freeCount := rfl
@[simp] theorem State.setPressure_life (s : State) (p : Pressure) :
    (s.setPressure p).life = s.life := rfl
@[simp] theorem State.setPressure_clock (s : State) (p : Pressure) :
    (s.setPressure p).clock = s.clock := rfl
@[simp] theorem State.setPressure_hours (s : State) (p : Pressure) :
    (s.setPressure p).hours = s.hours := rfl
@[simp] theorem State.setPressure_link (s : State) (p : Pressure) :
    (s.setPressure p).link = s.link := rfl
@[simp] theorem State.setPressure_notices (s : State) (p : Pressure) :
    (s.setPressure p).notices = s.notices := rfl
@[simp] theorem State.setPressure_params (s : State) (p : Pressure) :
    (s.setPressure p).params = s.params := rfl
@[simp] theorem State.setPressure_sensing (s : State) (p : Pressure) :
    (s.setPressure p).sensing = s.sensing := rfl
@[simp] theorem State.setPressure_demand (s : State) (p : Pressure) :
    (s.setPressure p).demand = s.demand := rfl
@[simp] theorem State.setPressure_bus (s : State) (p : Pressure) :
    (s.setPressure p).bus = s.bus := rfl
@[simp] theorem State.setPressure_humidity (s : State) (p : Pressure) :
    (s.setPressure p).humidity = s.humidity := rfl
@[simp] theorem State.setPressure_resolver (s : State) (p : Pressure) :
    (s.setPressure p).resolver = s.resolver := rfl
@[simp] theorem State.setPressure_drive (s : State) (p : Pressure) :
    (s.setPressure p).drive = s.drive := rfl
@[simp] theorem State.setPressure_pressure (s : State) (p : Pressure) :
    (s.setPressure p).pressure = p := rfl
@[simp] theorem State.setPressure_frost (s : State) (p : Pressure) :
    (s.setPressure p).frost = s.frost := rfl
@[simp] theorem State.setPressure_filters (s : State) (p : Pressure) :
    (s.setPressure p).filters = s.filters := rfl
@[simp] theorem State.setPressure_store (s : State) (p : Pressure) :
    (s.setPressure p).store = s.store := rfl

/-! ### State.setPreheater -/

@[simp] theorem State.setPreheater_pending (s : State) (h : Preheater) :
    (s.setPreheater h).pending = s.pending := rfl
@[simp] theorem State.setPreheater_agenda (s : State) (h : Preheater) :
    (s.setPreheater h).agenda = s.agenda := rfl
@[simp] theorem State.setPreheater_freeCount (s : State) (h : Preheater) :
    (s.setPreheater h).freeCount = s.freeCount := rfl
@[simp] theorem State.setPreheater_life (s : State) (h : Preheater) :
    (s.setPreheater h).life = s.life := rfl
@[simp] theorem State.setPreheater_clock (s : State) (h : Preheater) :
    (s.setPreheater h).clock = s.clock := rfl
@[simp] theorem State.setPreheater_hours (s : State) (h : Preheater) :
    (s.setPreheater h).hours = s.hours := rfl
@[simp] theorem State.setPreheater_link (s : State) (h : Preheater) :
    (s.setPreheater h).link = s.link := rfl
@[simp] theorem State.setPreheater_notices (s : State) (h : Preheater) :
    (s.setPreheater h).notices = s.notices := rfl
@[simp] theorem State.setPreheater_params (s : State) (h : Preheater) :
    (s.setPreheater h).params = s.params := rfl
@[simp] theorem State.setPreheater_sensing (s : State) (h : Preheater) :
    (s.setPreheater h).sensing = s.sensing := rfl
@[simp] theorem State.setPreheater_demand (s : State) (h : Preheater) :
    (s.setPreheater h).demand = s.demand := rfl
@[simp] theorem State.setPreheater_bus (s : State) (h : Preheater) :
    (s.setPreheater h).bus = s.bus := rfl
@[simp] theorem State.setPreheater_humidity (s : State) (h : Preheater) :
    (s.setPreheater h).humidity = s.humidity := rfl
@[simp] theorem State.setPreheater_resolver (s : State) (h : Preheater) :
    (s.setPreheater h).resolver = s.resolver := rfl
@[simp] theorem State.setPreheater_drive (s : State) (h : Preheater) :
    (s.setPreheater h).drive = { s.drive with preheater := h } := rfl
@[simp] theorem State.setPreheater_pressure (s : State) (h : Preheater) :
    (s.setPreheater h).pressure = s.pressure := rfl
@[simp] theorem State.setPreheater_frost (s : State) (h : Preheater) :
    (s.setPreheater h).frost = s.frost := rfl
@[simp] theorem State.setPreheater_filters (s : State) (h : Preheater) :
    (s.setPreheater h).filters = s.filters := rfl
@[simp] theorem State.setPreheater_store (s : State) (h : Preheater) :
    (s.setPreheater h).store = s.store := rfl

/-! ### State.moveFan -/

@[simp] theorem State.moveFan_pending (s : State) (f : FanId) (x : Fan) :
    (s.moveFan f x).pending = s.pending := rfl
@[simp] theorem State.moveFan_agenda (s : State) (f : FanId) (x : Fan) :
    (s.moveFan f x).agenda = s.agenda := rfl
@[simp] theorem State.moveFan_freeCount (s : State) (f : FanId) (x : Fan) :
    (s.moveFan f x).freeCount = s.freeCount := rfl
@[simp] theorem State.moveFan_life (s : State) (f : FanId) (x : Fan) :
    (s.moveFan f x).life = s.life := rfl
@[simp] theorem State.moveFan_clock (s : State) (f : FanId) (x : Fan) :
    (s.moveFan f x).clock = s.clock := rfl
@[simp] theorem State.moveFan_hours (s : State) (f : FanId) (x : Fan) :
    (s.moveFan f x).hours = s.hours := rfl
@[simp] theorem State.moveFan_link (s : State) (f : FanId) (x : Fan) :
    (s.moveFan f x).link = s.link := rfl
@[simp] theorem State.moveFan_notices (s : State) (f : FanId) (x : Fan) :
    (s.moveFan f x).notices = s.notices := rfl
@[simp] theorem State.moveFan_params (s : State) (f : FanId) (x : Fan) :
    (s.moveFan f x).params = s.params := rfl
@[simp] theorem State.moveFan_sensing (s : State) (f : FanId) (x : Fan) :
    (s.moveFan f x).sensing = s.sensing := rfl
@[simp] theorem State.moveFan_demand (s : State) (f : FanId) (x : Fan) :
    (s.moveFan f x).demand = s.demand := rfl
@[simp] theorem State.moveFan_bus (s : State) (f : FanId) (x : Fan) :
    (s.moveFan f x).bus = s.bus := rfl
@[simp] theorem State.moveFan_humidity (s : State) (f : FanId) (x : Fan) :
    (s.moveFan f x).humidity = s.humidity := rfl
@[simp] theorem State.moveFan_resolver (s : State) (f : FanId) (x : Fan) :
    (s.moveFan f x).resolver = s.resolver := rfl
@[simp] theorem State.moveFan_drive (s : State) (f : FanId) (x : Fan) :
    (s.moveFan f x).drive = s.drive.moveFan f x := rfl
@[simp] theorem State.moveFan_pressure (s : State) (f : FanId) (x : Fan) :
    (s.moveFan f x).pressure = s.pressure := rfl
@[simp] theorem State.moveFan_frost (s : State) (f : FanId) (x : Fan) :
    (s.moveFan f x).frost = s.frost := rfl
@[simp] theorem State.moveFan_filters (s : State) (f : FanId) (x : Fan) :
    (s.moveFan f x).filters = s.filters := rfl
@[simp] theorem State.moveFan_store (s : State) (f : FanId) (x : Fan) :
    (s.moveFan f x).store = s.store := rfl

end Sys2Proof.Machine
end

