-- ==== Sys2Proof/Laws/Ops.lean ====
section
/-! SUPPORT. What each shared operation can do, said once: the recompute of the resolution, the judging of the gates,
the waiting of a setting change in the store, and the two ways in which a row reaches the part. -/

namespace Sys2Proof.Machine

/-! ### The two ways in -/

/-- A host command the part acknowledges runs. -/
theorem hostCommand_of_answering {s : State} (h : s.answering = true) (run : State → State) :
    hostCommand s run = .next (run s) := by simp [hostCommand, h]

/-- A host command the part does not acknowledge changes nothing. -/
theorem hostCommand_of_silent {s : State} (h : s.answering = false) (run : State → State) :
    hostCommand s run = .next s := by simp [hostCommand, h]

/-- An event of a running part happens. -/
theorem partEvent_of_running {s : State} (h : s.running = true) (run : State → State) :
    partEvent s run = .next (run s) := by simp [partEvent, h]

/-- A part that does not run has no events. -/
theorem partEvent_of_stopped {s : State} (h : s.running = false) (run : State → State) :
    partEvent s run = .next s := by simp [partEvent, h]

/-! ### Conditional updates -/

/-- A conditional notice moves the notices alone. -/
theorem State.notifyIf_eq (s : State) (c : Bool) (x : Notice) :
    s.notifyIf c x = { s with notices := if c then s.notices.set x else s.notices } := by
  cases c <;> rfl

/-- A conditional change of a block moves the store alone. -/
theorem State.changedIf_eq (s : State) (c : Bool) (b : Block) :
    s.changedIf c b = { s with store := if c then s.store.change b else s.store } := by
  cases c <;> rfl

/-! ### Stations -/

/-- A change to each station is that change to every one of them. -/
@[simp] theorem eachStation_getElem {α : Type} (f : α → α) (v : Vector α 6) (n : StationId) :
    (eachStation f v)[n] = f v[n] := by
  simp [eachStation]

/-! ### Drive -/

@[simp] theorem Drive.fan_setFan_self (d : Drive) (f : FanId) (x : Fan) : (d.setFan f x).fan f = x := by
  cases f <;> rfl

theorem Drive.fan_setFan_of_ne (d : Drive) {f g : FanId} (x : Fan) (h : g ≠ f) :
    (d.setFan f x).fan g = d.fan g := by
  cases f <;> cases g <;> first | rfl | exact absurd rfl h

@[simp] theorem Drive.fan_moveFan_self (d : Drive) (f : FanId) (x : Fan) : (d.moveFan f x).fan f = x := by
  unfold Drive.moveFan; split <;> cases f <;> rfl

theorem Drive.fan_moveFan_of_ne (d : Drive) {f g : FanId} (x : Fan) (h : g ≠ f) :
    (d.moveFan f x).fan g = d.fan g := by
  unfold Drive.moveFan; split <;> cases f <;> cases g <;> first | rfl | exact absurd rfl h

/-- Moving a fan leaves the tables, the trim, the steady flag and the preheater. -/
theorem Drive.moveFan_rest (d : Drive) (f : FanId) (x : Fan) :
    (d.moveFan f x).cals = d.cals ∧ (d.moveFan f x).trim = d.trim ∧ (d.moveFan f x).steady = d.steady
      ∧ (d.moveFan f x).preheater = d.preheater := by
  unfold Drive.moveFan; split <;> cases f <;> exact ⟨rfl, rfl, rfl, rfl⟩

/-- Following a request leaves a fan's source, counts and availability, and makes the request its requested
duty where a drop asks for 0. -/
theorem Fan.follow_keeps (x : Fan) (r : DutyRequest) (first interval : Nat) :
    (x.follow r first interval).source = x.source ∧ (x.follow r first interval).attempts = x.attempts
      ∧ (x.follow r first interval).rest = x.rest ∧ (x.follow r first interval).cleanRun = x.cleanRun
      ∧ ((x.follow r first interval).state.available = x.state.available ∨ r.drop = false) := by
  unfold Fan.follow Fan.drop Fan.redirect Fan.start
  repeat' split
  all_goals simp_all [FanState.available]

/-- A fan at rest or locked is asked to drop to 0. -/
theorem State.fanRequest_unavailable {s : State} {f : FanId} (h : (s.drive.fan f).state.available = false) :
    s.fanRequest f = ⟨0, true⟩ := by simp [State.fanRequest, State.forcedToZero, h]

/-- A request that comes with a drop is 0. -/
theorem State.fanRequest_drop (s : State) (f : FanId) (h : (s.fanRequest f).drop = true) :
    (s.fanRequest f).duty = 0 := by
  unfold State.fanRequest at h ⊢
  split at h
  · simp_all
  · split at h <;> cases h

/-- Following a request gives the fan that requested duty. -/
theorem Fan.follow_requested (x : Fan) (r : DutyRequest) (first interval : Nat) (h : r.drop = true → r.duty = 0) :
    (x.follow r first interval).requested = r.duty := by
  unfold Fan.follow Fan.drop Fan.redirect Fan.start
  repeat' split
  all_goals simp_all

/-- Forming a request moves the drive alone. -/
theorem State.formRequest_eq (s : State) (f : FanId) :
    s.formRequest f = { s with drive := (s.formRequest f).drive } := rfl

/-- What forming a request leaves of every fan, and that it leaves the tables, the trim, the steady flag and the
preheater. -/
theorem State.formRequest_keeps (s : State) (f g : FanId) :
    ((s.formRequest f).drive.fan g).source = (s.drive.fan g).source
      ∧ ((s.formRequest f).drive.fan g).attempts = (s.drive.fan g).attempts
      ∧ ((s.formRequest f).drive.fan g).rest = (s.drive.fan g).rest
      ∧ ((s.formRequest f).drive.fan g).cleanRun = (s.drive.fan g).cleanRun
      ∧ ((s.formRequest f).drive.fan g).state.available = (s.drive.fan g).state.available := by
  by_cases h : g = f
  · subst h
    have k := Fan.follow_keeps (s.drive.fan g) (s.fanRequest g) (s.firstDuty g) s.params.slewInterval
    simp only [State.formRequest, State.moveFan_drive, Drive.fan_moveFan_self]
    refine ⟨k.1, k.2.1, k.2.2.1, k.2.2.2.1, ?_⟩
    cases ha : (s.drive.fan g).state.available with
    | false =>
      rw [State.fanRequest_unavailable ha]
      by_cases hr : (s.drive.fan g).state = .running
      · rw [hr] at ha; cases ha
      · simp [Fan.follow, Fan.drop, hr, ha]
    | true =>
      unfold Fan.follow Fan.drop Fan.redirect Fan.start
      repeat' split
      all_goals simp_all [FanState.available]
  · simp [State.formRequest, Drive.fan_moveFan_of_ne _ _ h]

/-- Forming a request gives its fan the requested duty of R109 and leaves the other fan's. -/
theorem State.formRequest_requested (s : State) (f g : FanId) :
    ((s.formRequest f).drive.fan g).requested =
      if g = f then (s.fanRequest f).duty else (s.drive.fan g).requested := by
  by_cases h : g = f
  · subst h
    simp only [State.formRequest, State.moveFan_drive, Drive.fan_moveFan_self, if_pos]
    exact Fan.follow_requested _ _ _ _ (State.fanRequest_drop s g)
  · simp only [State.formRequest, State.moveFan_drive, Drive.fan_moveFan_of_ne _ _ h, if_neg h]

/-- The request formed for a fan reads only what its rule names. -/
theorem State.fanRequest_congr {s t : State} {f : FanId} (hm : t.resolver = s.resolver)
    (hf : t.frost = s.frost) (ht : t.drive.trim = s.drive.trim) (hc : t.drive.cals = s.drive.cals)
    (hs : (t.drive.fan f).source = (s.drive.fan f).source)
    (ha : (t.drive.fan f).state.available = (s.drive.fan f).state.available) :
    t.fanRequest f = s.fanRequest f := by
  have h1 : t.firstDuty f = s.firstDuty f := by simp [State.firstDuty, hc]
  have h2 : t.lookupFlow f = s.lookupFlow f := by cases f <;> simp [State.lookupFlow, hm, ht]
  have h3 : t.forcedToZero f = s.forcedToZero f := by
    simp [State.forcedToZero, State.zeroTargets, ha, hm, hf]
  simp only [State.fanRequest, h1, h2, h3, hs, hc]

/-- Forming a request does not change the request that any fan's rule gives. -/
theorem State.fanRequest_formRequest (s : State) (f g : FanId) :
    (s.formRequest f).fanRequest g = s.fanRequest g := by
  have k := State.formRequest_keeps s f g
  have r := Drive.moveFan_rest s.drive f
    ((s.drive.fan f).follow (s.fanRequest f) (s.firstDuty f) s.params.slewInterval)
  exact State.fanRequest_congr rfl rfl r.2.1 r.1 k.1 k.2.2.2.2

/-! ### The drive's tail -/

/-- The drive's tail moves the preheater's effective duty and pin, the steady flag and the fresh flag. -/
theorem State.driveTail_eq (s : State) :
    s.driveTail =
      { s with
        drive :=
          { s.drive with
            steady := s.driveTail.drive.steady
            preheater :=
              { s.drive.preheater with
                effective := s.driveTail.drive.preheater.effective
                pin := s.driveTail.drive.preheater.pin } }
        pressure := { s.pressure with fresh := s.driveTail.pressure.fresh } } := by
  unfold State.driveTail State.refreshSteady State.refreshPreheat
  split <;> rfl

/-- A fan is not moved by the drive's tail. -/
theorem State.driveTail_fan (s : State) (f : FanId) : s.driveTail.drive.fan f = s.drive.fan f := by
  rw [State.driveTail_eq]; cases f <;> rfl

/-! ### The recompute -/

/-- The recompute moves the view, the drive and the fresh flag alone. -/
theorem State.recompute_eq (s : State) :
    s.recompute =
      { s with
        resolver := { s.resolver with view := resolve s }
        drive := s.recompute.drive
        pressure := { s.pressure with fresh := s.recompute.pressure.fresh } } := by
  unfold State.recompute State.handTargets
  rw [State.driveTail_eq]
  rfl

/-! ### What a recompute does -/

/-- A channel follows itself. -/
theorem Pressure.FollowedBy.refl (p : Pressure) : p.FollowedBy p := ⟨rfl, fun _ => rfl⟩

/-- Two followings of the channel are one. -/
theorem Pressure.FollowedBy.trans {p q r : Pressure} (h : p.FollowedBy q) (k : q.FollowedBy r) : p.FollowedBy r := by
  refine ⟨?_, fun x => (k.2 x).trans (h.2 x)⟩
  rw [k.1, h.1]

/-- An abort (R134) keeps the requests, the entries and the timers. -/
theorem Pressure.abort_followedBy (p : Pressure) : p.FollowedBy p.abort := by
  unfold Pressure.abort
  split
  · refine ⟨?_, fun r => ?_⟩
    · rename_i f _; cases f.requester <;> rfl
    · rename_i f _
      cases hf : f.requester <;> cases r <;> simp [Pressure.setRequest, Pressure.request]
  · exact .refl p

/-- A grant (R133) keeps the requests, the entries and the timers. -/
theorem Pressure.begin_followedBy {p : Pressure} {r : Requester} {q : Request} (h : p.request r = some q) (now : Nat) :
    p.FollowedBy (p.begin r q now) := by
  unfold Pressure.begin Pressure.driveSelector
  refine ⟨?_, fun x => ?_⟩
  · dsimp only
    split <;> cases r <;> rfl
  · dsimp only
    split <;> cases r <;> cases x <;> simp_all [Pressure.setRequest, Pressure.request]

/-- The judging of the gate in flight moves the channel alone. -/
theorem State.judgeGates_spec (s : State) : ∃ q, s.judgeGates = { s with pressure := q } ∧ s.pressure.FollowedBy q := by
  unfold State.judgeGates
  split
  · split
    · exact ⟨_, rfl, .refl _⟩
    · exact ⟨_, rfl, Pressure.abort_followedBy _⟩
  · exact ⟨_, rfl, .refl _⟩

/-- A grant moves the channel alone. -/
theorem State.grant_spec (s : State) : ∃ q, s.grant = { s with pressure := q } ∧ s.pressure.FollowedBy q := by
  unfold State.grant
  split
  · split
    · rename_i h; exact ⟨_, rfl, Pressure.begin_followedBy h _⟩
    · exact ⟨_, rfl, .refl _⟩
  · exact ⟨_, rfl, .refl _⟩

/-- R133: the requester of the next grant is the one that the order and its exception name. -/
theorem State.nextGrant_of_goesTo {s : State} {x : Requester} (h : s.GrantGoesTo x) : s.nextGrant = some x := by
  obtain ⟨h1, h2, h3⟩ := h
  unfold State.nextGrant
  by_cases hh : s.pressure.history = [.frost, .frost]
  · have h3 := h3 hh
    simp only [hh, if_true]
    cases x <;> simp_all [grantOrder, List.filter]
  · have h2 := h2 hh
    simp only [hh, if_false]
    cases x <;> simp_all [grantOrder, List.filter]

/-- R133: without an eligible requester no grant is made. -/
theorem State.nextGrant_none {s : State} (h : ∀ x, s.eligible x = false) : s.nextGrant = none := by
  simp [State.nextGrant, grantOrder, List.filter, h]

@[simp] theorem Pressure.request_setRequest_self (p : Pressure) (x : Requester) (v : Option Request) :
    (p.setRequest x v).request x = v := by cases x <;> rfl

theorem Pressure.request_setRequest_of_ne (p : Pressure) {x y : Requester} (v : Option Request) (h : y ≠ x) :
    (p.setRequest x v).request y = p.request y := by
  cases x <;> cases y <;> first | rfl | exact absurd rfl h

@[simp] theorem Pressure.setRequest_position (p : Pressure) (x : Requester) (v : Option Request) :
    (p.setRequest x v).position = p.position := by cases x <;> rfl

@[simp] theorem Pressure.setRequest_arrival (p : Pressure) (x : Requester) (v : Option Request) :
    (p.setRequest x v).arrival = p.arrival := by cases x <;> rfl

@[simp] theorem Pressure.setRequest_fresh (p : Pressure) (x : Requester) (v : Option Request) :
    (p.setRequest x v).fresh = p.fresh := by cases x <;> rfl

@[simp] theorem Pressure.driveSelector_fresh (p : Pressure) (t : Tap) (now : Nat) :
    (p.driveSelector t now).fresh = p.fresh := by
  unfold Pressure.driveSelector; split <;> rfl

@[simp] theorem Pressure.request_driveSelector (p : Pressure) (t : Tap) (now : Nat) (x : Requester) :
    (p.driveSelector t now).request x = p.request x := by
  unfold Pressure.driveSelector; split <;> cases x <;> rfl

/-- R126: the selector stands at the tap, and has stood there since it arrived. -/
theorem Pressure.driveSelector_spec (p : Pressure) (t : Tap) (now : Nat) :
    (p.driveSelector t now).position = t
      ∧ (p.driveSelector t now).arrival = if p.position = t then p.arrival else now := by
  unfold Pressure.driveSelector
  by_cases h : p.position = t
  · simp only [h, if_true, and_self]
  · simp only [h, if_false, and_self]

/-- R126, R129, R133 and R139: what a grant does. -/
theorem State.begin_grantsTo (s : State) (x : Requester) (r : Request) :
    s.GrantsTo x r (s.pressure.begin x r s.clock.ms) := by
  have hd := (s.pressure.setRequest x (some { r with granted := true })).driveSelector_spec r.tap s.clock.ms
  rw [Pressure.setRequest_position, Pressure.setRequest_arrival] at hd
  exact ⟨(Pressure.request_driveSelector _ _ _ x).trans (Pressure.request_setRequest_self _ _ _),
    fun y hy => (Pressure.request_driveSelector _ _ _ y).trans (Pressure.request_setRequest_of_ne _ _ hy),
    hd.1, hd.2, rfl, rfl, (Pressure.driveSelector_fresh _ _ _).trans (Pressure.setRequest_fresh _ _ _), rfl⟩

/-- R133: a FREE channel makes its grant. -/
theorem State.grant_grantedTo {s : State} (h : s.pressure.phase = .free) : s.GrantedTo s.grant.pressure := by
  refine ⟨fun hn => ?_, fun x r hx hr => ?_⟩
  · simp [State.grant, State.nextGrant_none hn]
  · simp only [State.grant, h, State.nextGrant_of_goesTo hx, hr]
    exact s.begin_grantsTo x r

/-- A channel that is not FREE makes no grant. -/
theorem State.grant_of_busy {s : State} {f : Flight} (h : s.pressure.phase.flight = some f) : s.grant = s := by
  unfold State.grant
  split
  · rename_i hp _; rw [hp] at h; cases h
  · rfl

/-- R133 and R134: what ends an event that bears on the gates moves the channel alone, which then has settled. -/
theorem State.channelTail_spec (s : State) :
    ∃ q, s.channelTail = { s with pressure := q } ∧ s.ChannelSettledTo q := by
  obtain ⟨p, hp, fp⟩ := s.judgeGates_spec
  obtain ⟨q, hq, fq⟩ := s.judgeGates.grant_spec
  have hs : s.channelTail = { s with pressure := q } := by rw [State.channelTail, hq, hp]
  have hqq : q = s.judgeGates.grant.pressure := by rw [hq]
  refine ⟨q, hs, ?_, fun hf => ?_, fun f hf => ⟨fun hg => ?_, fun hg => ?_⟩⟩
  · rw [hp] at fq; exact fp.trans fq
  · have hj : s.judgeGates = s := by simp [State.judgeGates, hf, Phase.flight]
    rw [hqq, hj]; exact State.grant_grantedTo hf
  · have hj : s.judgeGates = s := by simp [State.judgeGates, hf, hg]
    rw [hqq, hj, State.grant_of_busy hf]
  · have hj : s.judgeGates = { s with pressure := s.pressure.abort } := by simp [State.judgeGates, hf, hg]
    rw [hqq, hj]
    have ha : s.pressure.abort = { s.pressure.setRequest f.requester
        ((s.pressure.request f.requester).map fun r => { r with granted := false }) with phase := .free } := by
      simp [Pressure.abort, hf]
    rw [ha]
    exact State.grant_grantedTo rfl

/-- A drive follows itself. -/
theorem Drive.FollowedBy.refl (d : Drive) : d.FollowedBy d := ⟨rfl, fun _ => ⟨rfl, rfl, rfl, rfl, rfl⟩⟩

/-- Two followings of the drive are one. -/
theorem Drive.FollowedBy.trans {c d e : Drive} (h : c.FollowedBy d) (k : d.FollowedBy e) : c.FollowedBy e := by
  refine ⟨?_, fun f => ?_⟩
  · rw [k.1, h.1]
  · obtain ⟨a1, a2, a3, a4, a5⟩ := h.2 f
    obtain ⟨b1, b2, b3, b4, b5⟩ := k.2 f
    exact ⟨b1.trans a1, b2.trans a2, b3.trans a3, b4.trans a4, b5.trans a5⟩

/-- A fan moved without its source, counts and availability is a following of the drive. -/
theorem Drive.moveFan_followedBy {d : Drive} {f : FanId} {x : Fan} (h1 : x.source = (d.fan f).source)
    (h2 : x.attempts = (d.fan f).attempts) (h3 : x.rest = (d.fan f).rest) (h4 : x.cleanRun = (d.fan f).cleanRun)
    (h5 : x.state.available = (d.fan f).state.available) : d.FollowedBy (d.moveFan f x) := by
  refine ⟨?_, fun g => ?_⟩
  · unfold Drive.moveFan; split <;> cases f <;> rfl
  · by_cases h : g = f
    · subst h; simp [*]
    · simp [Drive.fan_moveFan_of_ne _ _ h]

/-- Forming a request is a following of the drive. -/
theorem State.formRequest_followedBy (s : State) (f : FanId) : s.drive.FollowedBy (s.formRequest f).drive := by
  obtain ⟨h1, h2, h3, h4, h5⟩ := State.formRequest_keeps s f f
  simp only [State.formRequest, State.moveFan_drive, Drive.fan_moveFan_self] at *
  exact Drive.moveFan_followedBy h1 h2 h3 h4 h5

/-- The drive's tail is a following of the drive and of the channel. -/
theorem State.driveTail_spec (s : State) :
    s.driveTail = { s with drive := s.driveTail.drive, pressure := s.driveTail.pressure }
      ∧ s.drive.FollowedBy s.driveTail.drive ∧ s.pressure.FollowedBy s.driveTail.pressure := by
  rw [State.driveTail_eq]
  exact ⟨rfl, ⟨rfl, fun f => by cases f <;> exact ⟨rfl, rfl, rfl, rfl, rfl⟩⟩, rfl, fun r => by cases r <;> rfl⟩

/-- The drive's tail does not change the request that a fan's rule gives. -/
theorem State.fanRequest_driveTail (s : State) (f : FanId) : s.driveTail.fanRequest f = s.fanRequest f := by
  rw [State.driveTail_eq]; cases f <;> rfl

/-- After the targets are handed on, each fan has the request of R109. -/
theorem State.handTargets_requestsCurrent (s : State) : s.handTargets.RequestsCurrent := by
  have key (f : FanId) : (s.handTargets.drive.fan f).requested = (s.handTargets.fanRequest f).duty := by
    unfold State.handTargets
    rw [State.fanRequest_driveTail, State.driveTail_fan, State.fanRequest_formRequest, State.fanRequest_formRequest,
      State.formRequest_requested, State.fanRequest_formRequest, State.formRequest_requested]
    cases f <;> rfl
  exact ⟨key .sup, key .ext⟩

/-- R116: moving a fan restarts the steadiness timer where its commanded duty changes. -/
theorem Drive.moveFan_elapsed (d : Drive) (f : FanId) (x : Fan) :
    (d.moveFan f x).elapsed = if x.commanded = (d.fan f).commanded then d.elapsed else 0 := by
  unfold Drive.moveFan; split <;> cases f <;> rfl

/-- R116, R123 and R144: what the drive's tail leaves. -/
theorem State.driveTail_settled (u : State) :
    u.driveTail.drive.elapsed = u.drive.elapsed ∧ u.driveTail.drive.steady = u.driveTail.steadyNow
      ∧ u.driveTail.drive.preheater.effective = u.driveTail.effectivePreheat
      ∧ u.driveTail.drive.preheater.pin =
        (if u.driveTail.drive.preheater.effective = u.drive.preheater.effective then u.drive.preheater.pin
        else decide (u.clock.ms - u.drive.preheater.periodStart < u.driveTail.drive.preheater.effective * 100))
      ∧ u.driveTail.pressure = { u.pressure with fresh := u.pressure.fresh && (u.driveTail.drive.steady || !u.drive.steady) } := by
  unfold State.driveTail State.refreshPreheat
  split
  · next h => exact ⟨rfl, rfl, h.symm, by simp [State.refreshSteady], rfl⟩
  · next h => exact ⟨rfl, rfl, rfl, (if_neg h).symm, rfl⟩

/-- R116, R123, R134 and R144: an event that has moved the fans of `s` to those of `u` settles what hangs on the drive. -/
theorem State.driveChanged_settledTo {s u : State} (hc : u.clock = s.clock) (hp : u.pressure = s.pressure)
    (hs : u.drive.steady = s.drive.steady) (hh : u.drive.preheater = s.drive.preheater)
    (he : u.drive.elapsed =
      if u.drive.sup.commanded = s.drive.sup.commanded ∧ u.drive.ext.commanded = s.drive.ext.commanded then
        s.drive.elapsed
      else 0) : s.DriveSettledTo u.driveChanged := by
  obtain ⟨q, hq, fq⟩ := State.channelTail_spec u.driveTail
  obtain ⟨h1, h2, h3, h4, h5⟩ := State.driveTail_settled u
  have hf (f : FanId) : u.driveTail.drive.fan f = u.drive.fan f := State.driveTail_fan u f
  have hsup : u.driveTail.drive.sup = u.drive.sup := hf .sup
  have hext : u.driveTail.drive.ext = u.drive.ext := hf .ext
  unfold State.driveChanged
  rw [hq]
  refine ⟨?_, h2, h3, ?_, ?_⟩
  · show u.driveTail.drive.elapsed = if u.driveTail.drive.sup.commanded = _ ∧ u.driveTail.drive.ext.commanded = _ then _ else _
    rw [h1, he, hsup, hext]
  · show u.driveTail.drive.preheater.pin = _
    rw [h4, hc, hh]
  · have : ({ u.driveTail with pressure :=
        { s.pressure with fresh := s.pressure.fresh && (u.driveTail.drive.steady || !s.drive.steady) } } : State) = u.driveTail := by
      conv => rhs; rw [show u.driveTail = { u.driveTail with pressure := u.driveTail.pressure } from rfl, h5, hp, hs]
    show State.ChannelSettledTo { u.driveTail with pressure :=
        { s.pressure with fresh := s.pressure.fresh && (u.driveTail.drive.steady || !s.drive.steady) } } q
    rw [this]; exact fq

/-- R87 and R88: the targets of `s` handed on: each fan follows the request formed for it, and the steadiness timer restarts
where a commanded duty changes. -/
theorem State.formRequests_spec (s : State) :
    let u := (s.formRequest .sup).formRequest .ext
    (∀ f, u.drive.fan f = (s.drive.fan f).follow (s.fanRequest f) (s.firstDuty f) s.params.slewInterval)
      ∧ u.drive.steady = s.drive.steady ∧ u.drive.preheater = s.drive.preheater
      ∧ u.drive.elapsed =
        if u.drive.sup.commanded = s.drive.sup.commanded ∧ u.drive.ext.commanded = s.drive.ext.commanded then
          s.drive.elapsed
        else 0 := by
  intro u
  have hf : ∀ f, u.drive.fan f = (s.drive.fan f).follow (s.fanRequest f) (s.firstDuty f) s.params.slewInterval := by
    intro f
    have hd : (s.formRequest .sup).firstDuty .ext = s.firstDuty .ext := by
      simp [State.firstDuty, State.formRequest, (Drive.moveFan_rest _ _ _).1]
    have ho : (s.formRequest .sup).drive.fan .ext = s.drive.fan .ext := by
      simp [State.formRequest, Drive.fan_moveFan_of_ne]
    cases f
    · simp [u, State.formRequest, Drive.fan_moveFan_of_ne]
    · show ((s.formRequest .sup).drive.moveFan .ext _).fan .ext = _
      rw [Drive.fan_moveFan_self, ho, State.fanRequest_formRequest, hd]
      rfl
  have h1 := Drive.moveFan_rest s.drive .sup
    ((s.drive.fan .sup).follow (s.fanRequest .sup) (s.firstDuty .sup) s.params.slewInterval)
  have h2 := Drive.moveFan_rest (s.formRequest .sup).drive .ext
    (((s.formRequest .sup).drive.fan .ext).follow ((s.formRequest .sup).fanRequest .ext) ((s.formRequest .sup).firstDuty .ext)
      (s.formRequest .sup).params.slewInterval)
  refine ⟨hf, h2.2.2.1.trans h1.2.2.1, h2.2.2.2.trans h1.2.2.2, ?_⟩
  have hs : u.drive.sup = (s.formRequest .sup).drive.sup :=
    Drive.fan_moveFan_of_ne (f := .ext) (g := .sup) _ _ (by decide)
  have he : (s.formRequest .sup).drive.ext = s.drive.ext :=
    Drive.fan_moveFan_of_ne (f := .sup) (g := .ext) _ _ (by decide)
  have k1 := Drive.moveFan_elapsed s.drive .sup
    ((s.drive.fan .sup).follow (s.fanRequest .sup) (s.firstDuty .sup) s.params.slewInterval)
  have k2 := Drive.moveFan_elapsed (s.formRequest .sup).drive .ext
    (((s.formRequest .sup).drive.fan .ext).follow ((s.formRequest .sup).fanRequest .ext) ((s.formRequest .sup).firstDuty .ext)
      (s.formRequest .sup).params.slewInterval)
  have e1 : (s.formRequest .sup).drive.elapsed = if u.drive.sup.commanded = s.drive.sup.commanded then s.drive.elapsed else 0 := by
    rw [show u.drive.sup = _ from hf .sup]; exact k1
  have e2 : u.drive.elapsed = if u.drive.ext.commanded = s.drive.ext.commanded then (s.formRequest .sup).drive.elapsed else 0 := by
    have e3 : u.drive.ext = _ := Drive.fan_moveFan_self (s.formRequest .sup).drive .ext
      (((s.formRequest .sup).drive.fan .ext).follow ((s.formRequest .sup).fanRequest .ext)
        ((s.formRequest .sup).firstDuty .ext) (s.formRequest .sup).params.slewInterval)
    rw [e3, ← he]; exact k2
  rw [e2, e1]
  by_cases a : u.drive.sup.commanded = s.drive.sup.commanded <;>
    by_cases b : u.drive.ext.commanded = s.drive.ext.commanded <;> simp [a, b]

/-- What follows a change of the drive leaves the requests as they were formed. -/
theorem State.driveChanged_requestsCurrent {w : State} (h : w.driveTail.RequestsCurrent) :
    w.driveChanged.RequestsCurrent := by
  obtain ⟨q, hq, -⟩ := State.channelTail_spec w.driveTail
  unfold State.driveChanged
  rw [hq]
  generalize w.driveTail = v at h
  have hc (f : FanId) : State.fanRequest { v with pressure := q } f = v.fanRequest f :=
    State.fanRequest_congr rfl rfl rfl rfl rfl rfl
  exact ⟨h.1.trans (congrArg DutyRequest.duty (hc .sup).symm), h.2.trans (congrArg DutyRequest.duty (hc .ext).symm)⟩

/-- An event that changes an input of the resolver ends in a recompute, which does what R87, R88 and R113 to R116 say, and
nothing else. -/
theorem State.inputChanged_recomputedTo (s : State) : s.RecomputedTo s.inputChanged := by
  let u : State := { s with resolver := { s.resolver with view := resolve s } }
  let w := (u.formRequest .sup).formRequest .ext
  have hw : s.inputChanged = w.driveChanged := rfl
  obtain ⟨k1, k2, k3, k4⟩ := State.formRequests_spec u
  obtain ⟨q, hq, fq⟩ := State.channelTail_spec w.driveTail
  have hd : w.driveChanged = { w.driveTail with pressure := q } := hq
  have ht := State.driveTail_spec w
  have hfan (f : FanId) : w.driveChanged.drive.fan f = w.drive.fan f := by rw [hd]; exact State.driveTail_fan w f
  rw [hw]
  refine ⟨?_, ?_, ?_, ?_, fun f => (hfan f).trans (k1 f), State.driveChanged_settledTo rfl rfl k2 k3 k4⟩
  · have hr := State.recompute_eq s
    have hi : w.driveChanged = { s.recompute with pressure := q } := hq
    rw [hi]
    conv => lhs; rw [hr]
  · rw [hd]
    exact ((State.formRequest_followedBy u .sup).trans (State.formRequest_followedBy _ .ext)).trans ht.2.1
  · rw [hd]; exact ht.2.2.trans fq.1
  · have hr := State.handTargets_requestsCurrent u
    rw [show u.handTargets = w.driveTail from rfl] at hr
    exact State.driveChanged_requestsCurrent hr

end Sys2Proof.Machine
end

