-- ==== Sys2Proof/Laws/Demand.lean ====
section
/-! SUPPORT. The demand table's operations on a record in its place, and the records that a handle or a key names
(R24 to R30, R50). -/

namespace Sys2Proof.Machine

/-- R24: the two bytes of a handle. -/
theorem DemandRecord.handle_bytes (r : DemandRecord) (h : r.gen ≤ 255) :
    (r.handle.extractLsb' 0 8).toNat = r.entry.val ∧ (r.handle.extractLsb' 8 8).toNat = r.gen := by
  have := r.entry.isLt
  constructor
  · simp [DemandRecord.handle, BitVec.extractLsb'_toNat]; omega
  · simp [DemandRecord.handle, BitVec.extractLsb'_toNat, Nat.shiftRight_eq_div_pow]; omega

/-- R24: a handle spells the entry and its generation, and nothing else. -/
theorem DemandRecord.handle_eq (r : DemandRecord) (w : Half) (h : r.gen ≤ 255) :
    r.handle = w ↔ r.entry.val = (w.extractLsb' 0 8).toNat ∧ r.gen = (w.extractLsb' 8 8).toNat := by
  constructor
  · rintro rfl; exact ⟨(r.handle_bytes h).1.symm, (r.handle_bytes h).2.symm⟩
  · rintro ⟨h1, h2⟩
    have := w.isLt
    have := r.entry.isLt
    apply BitVec.eq_of_toNat_eq
    simp [BitVec.extractLsb'_toNat, Nat.shiftRight_eq_div_pow] at h1 h2
    simp [DemandRecord.handle]; omega

theorem DemandTable.EntriesOk.nodup {t : DemandTable} (h : t.EntriesOk) : (t.live.map DemandRecord.entry).Nodup :=
  (List.nodup_append.1 h.1).2.1

theorem DemandTable.EntriesOk.inj {t : DemandTable} (h : t.EntriesOk) {a b : DemandRecord} (ha : a ∈ t.live)
    (hb : b ∈ t.live) (he : a.entry = b.entry) : a = b := List.inj_on_of_nodup_map h.nodup ha hb he

/-- No other record stands in a record's entry. -/
theorem DemandTable.EntriesOk.entry_ne {t : DemandTable} (h : t.EntriesOk) {pre post : List DemandRecord}
    {r : DemandRecord} (hl : t.live = pre ++ r :: post) :
    (∀ x ∈ pre, x.entry ≠ r.entry) ∧ ∀ x ∈ post, x.entry ≠ r.entry := by
  have hn := h.nodup
  rw [hl, List.map_append, List.map_cons] at hn
  refine ⟨fun x hx he => ?_, fun x hx he => ?_⟩
  · exact (List.nodup_append.1 hn).2.2 _ (List.mem_map_of_mem hx) r.entry (by simp) he
  · exact (List.nodup_cons.1 (List.nodup_append.1 hn).2.1).1 (he ▸ List.mem_map_of_mem hx)

theorem map_entry_of_ne (e : Fin 24) (f : DemandRecord → DemandRecord) {l : List DemandRecord}
    (h : ∀ x ∈ l, x.entry ≠ e) : l.map (fun x => if x.entry = e then f x else x) = l := by
  induction l with
  | nil => rfl
  | cons a l ih => simp [h a (by simp), ih fun x hx => h x (by simp [hx])]

/-- R30: an amendment changes the record where it stands and no other. -/
theorem DemandTable.amend_at {t : DemandTable} (h : t.EntriesOk) {pre post : List DemandRecord} {r : DemandRecord}
    (hl : t.live = pre ++ r :: post) (f : DemandRecord → DemandRecord) :
    t.amend r f = { t with live := pre ++ f r :: post } := by
  unfold DemandTable.amend
  rw [hl, List.map_append, List.map_cons, map_entry_of_ne _ _ (h.entry_ne hl).1,
    map_entry_of_ne _ _ (h.entry_ne hl).2, if_pos rfl]

/-- R26 and R34: a retirement takes out the record, whose entry goes to the tail of the free list. -/
theorem DemandTable.remove_at {t : DemandTable} (h : t.EntriesOk) {pre post : List DemandRecord} {r : DemandRecord}
    (hl : t.live = pre ++ r :: post) :
    t.remove r = { t with live := pre ++ post, freeList := t.freeList ++ [r.entry] } := by
  unfold DemandTable.remove
  rw [hl, List.filter_append, List.filter_cons_of_neg (by simp),
    List.filter_eq_self.2 (fun x hx => by simp [(h.entry_ne hl).1 x hx]),
    List.filter_eq_self.2 (fun x hx => by simp [(h.entry_ne hl).2 x hx])]

/-- R30: a live record of origin LINK is the one its kind and tag name. -/
theorem DemandTable.byTag_at {t : DemandTable} (h : t.Ok) {pre post : List DemandRecord} {r : DemandRecord} {k : Kind}
    {tag : Byte} (hl : t.live = pre ++ r :: post) (h1 : r.origin = .link) (h2 : r.kind = k) (h3 : r.tag = some tag) :
    t.byTag k tag = some r := by
  have hm : r ∈ t.live := by rw [hl]; simp
  cases hf : t.byTag k tag with
  | none => have := List.find?_eq_none.1 hf r hm; simp [h1, h2, h3] at this
  | some x =>
    have hp := List.find?_some hf
    simp at hp
    rw [List.inj_on_of_nodup_map h.2.2.2.2.1 (List.mem_of_find?_eq_some hf) hm (by simp [DemandRecord.key, *])]

theorem DemandTable.byTag_none {t : DemandTable} {k : Kind} {tag : Byte}
    (h : ∀ r ∈ t.live, ¬(r.origin = .link ∧ r.kind = k ∧ r.tag = some tag)) : t.byTag k tag = none := by
  refine List.find?_eq_none.2 fun r hr => ?_
  have := h r hr
  simp; exact fun h1 h2 h3 => this ⟨h1, h2, h3⟩

/-- R27: only a LINK record has a tag. -/
theorem DemandRecord.Ok.tag_none {r : DemandRecord} (h : r.Ok) (ho : r.origin ≠ .link) : r.tag = none := by
  have := h.2.2.2.2.1
  cases ht : r.tag with
  | none => rfl
  | some x => simp [ht] at this; exact absurd this ho

/-- R30: a live record of an internal origin is the one its origin names. -/
theorem DemandTable.byOrigin_at {t : DemandTable} (h : t.Ok) {pre post : List DemandRecord} {r : DemandRecord}
    {o : Origin} (hl : t.live = pre ++ r :: post) (h1 : r.origin = o) (ho : o ≠ .link) :
    t.byOrigin o .boost = some r := by
  have hm : r ∈ t.live := by rw [hl]; simp
  have hk := (h.2.1 r hm).1.2.2.2.2.2.1 (by rw [h1]; exact ho)
  cases hf : t.byOrigin o .boost with
  | none => have := List.find?_eq_none.1 hf r hm; simp [h1, hk] at this
  | some x =>
    have hx := List.mem_of_find?_eq_some hf
    have hp := List.find?_some hf
    simp at hp
    rw [List.inj_on_of_nodup_map h.2.2.2.2.1 hx hm
      (by simp [DemandRecord.key, hp, h1, hk, (h.2.1 x hx).1.tag_none (by rw [hp.1]; exact ho),
        (h.2.1 r hm).1.tag_none (by rw [h1]; exact ho)])]

theorem renumber_seq (n : Nat) (l : List DemandRecord) : (renumber n l).map (·.seq) = List.range' n l.length := by
  induction l generalizing n with
  | nil => rfl
  | cons a l ih => simp [renumber, ih, List.range'_succ]

theorem renumber_rest (n : Nat) (l : List DemandRecord) :
    (renumber n l).map (fun r => { r with seq := 0 }) = l.map fun r => { r with seq := 0 } := by
  induction l generalizing n with
  | nil => rfl
  | cons a l ih => simp [renumber, ih]

/-- R50: an amendment that keeps the state: the record changes where it stands, and a change of level recomputes. -/
theorem State.amendRecord_spec {s : State} (h : s.demand.EntriesOk) {pre post : List DemandRecord} {r : DemandRecord}
    (hl : s.demand.live = pre ++ r :: post) (f : DemandRecord → DemandRecord) :
    let a : State := { s with demand := { s.demand with live := pre ++ f r :: post } }
    ((f r).level = r.level → (f r).held = r.held → s.amendRecord r f = a)
      ∧ ((f r).level ≠ r.level ∨ (f r).held ≠ r.held → a.RecomputedTo (s.amendRecord r f)) := by
  intro a
  have : s.setDemand (s.demand.amend r f) = a := by simp only [State.setDemand, DemandTable.amend_at h hl, a]
  unfold State.amendRecord
  rw [this]
  refine ⟨fun h1 h2 => if_pos ⟨h1, h2⟩, fun h1 => ?_⟩
  rw [if_neg (by rintro ⟨h2, h3⟩; rcases h1 with h1 | h1 <;> contradiction)]
  exact State.inputChanged_recomputedTo _

/-- R50: a filing recomputes. -/
theorem State.fileRecord_spec (s : State) (x : Draft) :
    ({ s with demand := s.demand.add x s.clock.seconds } : State).RecomputedTo (s.fileRecord x) :=
  State.inputChanged_recomputedTo _

/-- R34 and R50: a retirement takes out the record and recomputes. -/
theorem State.retireRecord_spec {s : State} (h : s.demand.EntriesOk) {pre post : List DemandRecord} {r : DemandRecord}
    (hl : s.demand.live = pre ++ r :: post) :
    State.RecomputedTo
      { s with demand := { s.demand with live := pre ++ post, freeList := s.demand.freeList ++ [r.entry] } }
      (s.retireRecord r) := by
  have := State.inputChanged_recomputedTo (s.setDemand (s.demand.remove r))
  rw [DemandTable.remove_at h hl] at this
  unfold State.retireRecord
  rw [DemandTable.remove_at h hl]
  exact this

end Sys2Proof.Machine
end

