-- ==== Sys2Proof/Laws/Drive.lean ====
section
/-! SUPPORT. What the changes inside the fan drive move (R109, R113, R116, R123). -/

namespace Sys2Proof.Machine

theorem State.DriveMovedTo.refl (s : State) : s.DriveMovedTo s := ⟨rfl, rfl, .refl _⟩

theorem State.DriveMovedTo.trans {s t u : State} (h : s.DriveMovedTo t) (k : t.DriveMovedTo u) : s.DriveMovedTo u := by
  refine ⟨?_, ?_, h.2.2.trans k.2.2⟩
  · conv => lhs; rw [k.1, h.1]
  · conv => lhs; rw [k.2.1, h.2.1]

/-- A move that keeps the commanded duty leaves the steadiness timer. -/
theorem Drive.moveFan_same {d : Drive} {f : FanId} {x : Fan} (h : x.commanded = (d.fan f).commanded) :
    d.moveFan f x = d.setFan f x := by simp [Drive.moveFan, h]

theorem State.moveFan_driveMovedTo (s : State) (f : FanId) (x : Fan) : s.DriveMovedTo (s.moveFan f x) := by
  refine ⟨rfl, ?_, .refl _⟩
  simp only [State.moveFan, Drive.moveFan]
  split <;> cases f <;> rfl

theorem State.formRequest_driveMovedTo (s : State) (f : FanId) : s.DriveMovedTo (s.formRequest f) :=
  State.moveFan_driveMovedTo _ _ _

/-- R116, R123 and R134: what follows a change inside the drive keeps both fans and the timer. -/
theorem State.driveChanged_spec (s : State) :
    s.DriveMovedTo s.driveChanged ∧ (∀ f, s.driveChanged.drive.fan f = s.drive.fan f)
      ∧ s.driveChanged.drive.elapsed = s.drive.elapsed ∧ s.driveChanged.drive.steady = s.driveChanged.steadyNow := by
  obtain ⟨q, hq, fq⟩ := State.channelTail_spec s.driveTail
  have hd := State.driveTail_eq s
  have h3 := (State.driveTail_spec s).2.2
  unfold State.driveChanged
  rw [hq]
  refine ⟨⟨?_, ?_, h3.trans fq.1⟩, ?_, ?_, ?_⟩
  · conv => lhs; rw [hd]
    rw [hd]
  · rw [hd]
  · intro g; rw [hd]; cases g <;> rfl
  · rw [hd]
  · unfold State.driveTail State.refreshSteady State.refreshPreheat
    split <;> rfl

/-- Forming one fan's request: it follows, the other fan stays, and the steadiness timer restarts where the commanded duty
changes. -/
theorem State.formRequest_spec (s : State) (f : FanId) :
    let u := s.formRequest f
    u.drive.fan f = (s.drive.fan f).follow (s.fanRequest f) (s.firstDuty f) s.params.slewInterval
      ∧ (∀ g, g ≠ f → u.drive.fan g = s.drive.fan g)
      ∧ u.drive.steady = s.drive.steady ∧ u.drive.preheater = s.drive.preheater
      ∧ u.drive.elapsed =
        if u.drive.sup.commanded = s.drive.sup.commanded ∧ u.drive.ext.commanded = s.drive.ext.commanded then
          s.drive.elapsed
        else 0 := by
  intro u
  have hm := Drive.moveFan_rest s.drive f
    ((s.drive.fan f).follow (s.fanRequest f) (s.firstDuty f) s.params.slewInterval)
  have hs : u.drive.fan f = (s.drive.fan f).follow (s.fanRequest f) (s.firstDuty f) s.params.slewInterval :=
    Drive.fan_moveFan_self _ _ _
  have ho : ∀ g, g ≠ f → u.drive.fan g = s.drive.fan g := fun g hg => Drive.fan_moveFan_of_ne _ _ hg
  refine ⟨hs, ho, hm.2.2.1, hm.2.2.2, ?_⟩
  have he := Drive.moveFan_elapsed s.drive f
    ((s.drive.fan f).follow (s.fanRequest f) (s.firstDuty f) s.params.slewInterval)
  have hs' := congrArg Fan.commanded hs
  rw [show u.drive.elapsed = _ from he, ← hs']
  cases f
  · have h2 : u.drive.ext = s.drive.ext := ho .ext (by decide)
    simp only [h2, Drive.fan, and_true]; congr
  · have h2 : u.drive.sup = s.drive.sup := ho .sup (by decide)
    simp only [h2, Drive.fan, true_and]; congr

/-- R113 to R116, R123 and R134: a fan's request formed again, with all that follows in the same event. -/
theorem State.formRequest_settledTo (s : State) (f : FanId) : s.DriveSettledTo (s.formRequest f).driveChanged := by
  obtain ⟨-, -, h3, h4, h5⟩ := State.formRequest_spec s f
  exact State.driveChanged_settledTo rfl rfl h3 h4 h5

/-- R122: an output takes a source: its fan's request is formed again and it follows; the other fan, its own counts and its
availability stay. -/
theorem State.setFanSource_spec (s : State) (f : FanId) (x : DriveSource) :
    let t := s.setFanSource f x
    let named : State := { s with drive := s.drive.setFan f { s.drive.fan f with source := x } }
    s.DriveMovedTo t ∧ s.DriveSettledTo t
      ∧ t.drive.fan f = Fan.follow { s.drive.fan f with source := x } (named.fanRequest f) (s.firstDuty f) s.params.slewInterval
      ∧ (∀ g, g ≠ f → t.drive.fan g = s.drive.fan g)
      ∧ (t.drive.fan f).requested = (t.fanRequest f).duty := by
  intro t named
  have hu : s.moveFan f { s.drive.fan f with source := x } = named := by
    simp only [State.moveFan, named, Drive.moveFan, if_true]
  have ht : t = (named.formRequest f).driveChanged := by simp only [t, State.setFanSource, hu]
  obtain ⟨g1, g2, g3, g4⟩ := State.driveChanged_spec (named.formRequest f)
  obtain ⟨k1, k2, k3, k4, k5⟩ := State.formRequest_spec named f
  have hn : ∀ g, g ≠ f → named.drive.fan g = s.drive.fan g := fun g hg => Drive.fan_setFan_of_ne _ _ hg
  have hself : named.drive.fan f = { s.drive.fan f with source := x } := Drive.fan_setFan_self _ _ _
  have hmv : s.DriveMovedTo named := hu ▸ State.moveFan_driveMovedTo s f _
  have hset : named.DriveSettledTo t := ht ▸ State.formRequest_settledTo named f
  have hsup : named.drive.sup.commanded = s.drive.sup.commanded := by cases f <;> rfl
  have hext : named.drive.ext.commanded = s.drive.ext.commanded := by cases f <;> rfl
  have hel : named.drive.elapsed = s.drive.elapsed := by cases f <;> rfl
  have hst : named.drive.steady = s.drive.steady := by cases f <;> rfl
  have hpre : named.drive.preheater = s.drive.preheater := by cases f <;> rfl
  have hc : named.firstDuty f = s.firstDuty f := by cases f <;> rfl
  refine ⟨ht ▸ (hmv.trans (State.formRequest_driveMovedTo _ _)).trans g1, ?_, ?_, ?_, ?_⟩
  · unfold State.DriveSettledTo at hset ⊢
    rw [hsup, hext, hel, hst, hpre] at hset
    exact hset
  · rw [ht, g2, k1, hself, hc]
  · intro g hg; rw [ht, g2, k2 g hg, hn g hg]
  · have h1 : (t.drive.fan f).requested = (named.fanRequest f).duty := by
      rw [ht, g2, State.formRequest_requested, if_pos rfl]
    rw [h1, ← State.fanRequest_formRequest named f f]
    refine congrArg DutyRequest.duty (State.fanRequest_congr ?_ ?_ ?_ ?_ ?_ ?_).symm
    · rw [ht, g1.1]
    · rw [ht, g1.1]
    · rw [ht, g1.2.1]
    · rw [ht, g1.2.1]
    · rw [ht, g2]
    · rw [ht, g2]

end Sys2Proof.Machine
end

