-- ==== Sys2Proof/Laws/PerInstr.lean ====
section
/-! SUPPORT. A law of every command, one lemma for each constructor: a write that carries it has its code, then the number
of its field bytes, which is the one R200 gives the code (R184, R200). -/

namespace Sys2Proof.Laws.WireLength

/-- R184 and R200: the write of the command, where it has one, is a code, the number of its field bytes, and those bytes,
as many as the code asks for. -/
def Statement (i : Instr) : Prop :=
  ∀ bytes, encodeWrite i = some bytes →
    ∃ code fields, bytes = code :: BitVec.ofNat 8 fields.length :: fields ∧ fieldLength code = some fields.length

/-- A write spelt out has the form the statement asks for. -/
theorem of_spelt {i : Instr} (code : Byte) (fields : List Byte)
    (h : encodeWrite i = some (code :: BitVec.ofNat 8 fields.length :: fields))
    (hf : fieldLength code = some fields.length) : Statement i := by
  intro bytes hb
  exact ⟨code, fields, Option.some.inj (hb.symm.trans h), hf⟩

/-- A row that no write carries. -/
theorem of_event {i : Instr} (h : encodeWrite i = none) : Statement i := by
  intro bytes hb
  rw [h] at hb
  cases hb

theorem fileDemand (kind : Byte) (level : Byte) (duration : Half) (tag : Byte) :
    Statement (.fileDemand kind level duration tag) :=
  of_spelt 0x01 ([kind, level] ++ Machine.bytesOfHalf duration ++ [tag]) rfl rfl

theorem amendDemand (handle : Half) (fields : Byte) (level : Byte) (duration : Half) :
    Statement (.amendDemand handle fields level duration) :=
  of_spelt 0x02 (Machine.bytesOfHalf handle ++ [fields, level] ++ Machine.bytesOfHalf duration) rfl rfl

theorem retireDemand (handle : Half) : Statement (.retireDemand handle) :=
  of_spelt 0x03 (Machine.bytesOfHalf handle) rfl rfl

theorem readDemand (handle : Half) : Statement (.readDemand handle) :=
  of_spelt 0x04 (Machine.bytesOfHalf handle) rfl rfl

theorem listDemands (position : Byte) : Statement (.listDemands position) := of_spelt 0x05 [position] rfl rfl

theorem readResolution : Statement .readResolution := of_spelt 0x08 [] rfl rfl

theorem readSensors : Statement .readSensors := of_spelt 0x09 [] rfl rfl

theorem readStation (address : Byte) : Statement (.readStation address) := of_spelt 0x0A [address] rfl rfl

theorem readHumidity : Statement .readHumidity := of_spelt 0x0B [] rfl rfl

theorem measure (tap : Byte) : Statement (.measure tap) := of_spelt 0x10 [tap] rfl rfl

theorem readMeasure : Statement .readMeasure := of_spelt 0x11 [] rfl rfl

theorem cancelMeasure : Statement .cancelMeasure := of_spelt 0x12 [] rfl rfl

theorem readTap (tap : Byte) : Statement (.readTap tap) := of_spelt 0x13 [tap] rfl rfl

theorem fitFilter (slot : Byte) (grade : Byte) (interval : Half) (baseline : Half) :
    Statement (.fitFilter slot grade interval baseline) :=
  of_spelt 0x18 ([slot, grade] ++ Machine.bytesOfHalf interval ++ Machine.bytesOfHalf baseline) rfl rfl

theorem retireFilter (slot : Byte) : Statement (.retireFilter slot) := of_spelt 0x19 [slot] rfl rfl

theorem readFilter (slot : Byte) : Statement (.readFilter slot) := of_spelt 0x1A [slot] rfl rfl

theorem readFrost : Statement .readFrost := of_spelt 0x1C [] rfl rfl

theorem relearnExchanger : Statement .relearnExchanger := of_spelt 0x1D [] rfl rfl

theorem setParam (ident : Byte) (value : Word) : Statement (.setParam ident value) :=
  of_spelt 0x20 ([ident] ++ Machine.bytesOfWord value) rfl rfl

theorem getParam (ident : Byte) : Statement (.getParam ident) := of_spelt 0x21 [ident] rfl rfl

theorem setMode (mode : Byte) : Statement (.setMode mode) := of_spelt 0x22 [mode] rfl rfl

theorem setSource (output : Byte) (source : Byte) (value : Half) : Statement (.setSource output source value) :=
  of_spelt 0x23 ([output, source] ++ Machine.bytesOfHalf value) rfl rfl

theorem writeCal (fan : Byte) (point : Byte) (duty : Half) (flow : Half) :
    Statement (.writeCal fan point duty flow) :=
  of_spelt 0x24 ([fan, point] ++ Machine.bytesOfHalf duty ++ Machine.bytesOfHalf flow) rfl rfl

theorem readCal (fan : Byte) : Statement (.readCal fan) := of_spelt 0x25 [fan] rfl rfl

theorem readFans : Statement .readFans := of_spelt 0x26 [] rfl rfl

theorem readNotices : Statement .readNotices := of_spelt 0x28 [] rfl rfl

theorem clearNotices (flags : Half) : Statement (.clearNotices flags) :=
  of_spelt 0x29 (Machine.bytesOfHalf flags) rfl rfl

theorem clearFanFault (fan : Byte) : Statement (.clearFanFault fan) := of_spelt 0x2A [fan] rfl rfl

theorem reset : Statement .reset := of_spelt 0x30 [] rfl rfl

theorem factoryClear : Statement .factoryClear := of_spelt 0x31 [] rfl rfl

theorem badCommand (bytes : List Byte) : Statement (.badCommand bytes) := of_event rfl

theorem factoryClearDone : Statement .factoryClearDone := of_event rfl

theorem powerReset (straps : BitVec 2) : Statement (.powerReset straps) := of_event rfl

theorem pinReset (released : Option (BitVec 2)) : Statement (.pinReset released) := of_event rfl

theorem storeWriteStart : Statement .storeWriteStart := of_event rfl

theorem storeWriteComplete : Statement .storeWriteComplete := of_event rfl

theorem analogSample (channel : AnalogChannel) (conversions : Vector Int 8) : Statement (.analogSample channel conversions) := of_event rfl

theorem holdTimerExpiry (channel : AnalogChannel) : Statement (.holdTimerExpiry channel) := of_event rfl

theorem startupEnd : Statement .startupEnd := of_event rfl

theorem contactLevelChange (contact : Contact) (samples : List Bool) : Statement (.contactLevelChange contact samples) := of_event rfl

theorem tachWindowClose (fan : FanId) (samples : List Bool) : Statement (.tachWindowClose fan samples) := of_event rfl

theorem restEnd (fan : FanId) : Statement (.restEnd fan) := of_event rfl

theorem cleanRunEnd (fan : FanId) : Statement (.cleanRunEnd fan) := of_event rfl

theorem slewStep (fan : FanId) : Statement (.slewStep fan) := of_event rfl

theorem steadinessReached : Statement .steadinessReached := of_event rfl

theorem preheatPeriodStart : Statement .preheatPeriodStart := of_event rfl

theorem preheatOnTimeEnd : Statement .preheatOnTimeEnd := of_event rfl

theorem demandExpiry (handle : Half) : Statement (.demandExpiry handle) := of_event rfl

theorem pollRoundStart : Statement .pollRoundStart := of_event rfl

theorem pollSlot : Statement .pollSlot := of_event rfl

theorem reportReceived (chars : Option (List Byte)) : Statement (.reportReceived chars) := of_event rfl

theorem replyBadCharacter : Statement .replyBadCharacter := of_event rfl

theorem replyTimeout : Statement .replyTimeout := of_event rfl

theorem stationHoldExpiry (station : StationId) : Statement (.stationHoldExpiry station) := of_event rfl

theorem humiditySample (source : SourceId) : Statement (.humiditySample source) := of_event rfl

theorem inhibitTimerExpiry (source : SourceId) : Statement (.inhibitTimerExpiry source) := of_event rfl

theorem settleEnd : Statement .settleEnd := of_event rfl

theorem reading (conversion : Int) : Statement (.reading conversion) := of_event rfl

theorem trimTimerExpiry : Statement .trimTimerExpiry := of_event rfl

theorem filterTimerExpiry : Statement .filterTimerExpiry := of_event rfl

theorem frostTimerExpiry : Statement .frostTimerExpiry := of_event rfl

theorem frostEvaluation : Statement .frostEvaluation := of_event rfl

theorem windowEdge : Statement .windowEdge := of_event rfl

theorem cycleWrap : Statement .cycleWrap := of_event rfl

theorem volumeAddition : Statement .volumeAddition := of_event rfl

theorem operatingHoursAdvance : Statement .operatingHoursAdvance := of_event rfl

theorem pollEnd : Statement .pollEnd := of_event rfl

theorem loadingEnd : Statement .loadingEnd := of_event rfl

theorem powerLoss : Statement .powerLoss := of_event rfl

end Sys2Proof.Laws.WireLength
end

