-- ==== Sys2Proof/Laws/Store.lean ====
section
/-! SUPPORT. What a change of a block, a cut write and a restart leave (R193 to R195). -/

namespace Sys2Proof.Machine

/-- R194: a block changed twice waits once. -/
@[simp] theorem Store.change_change (t : Store) (b : Block) : (t.change b).change b = t.change b := by
  unfold Store.change
  by_cases h : (t.clearing.isSome || t.queue.contains b) = true
  · simp only [h, if_true]
  · rw [if_neg h, if_pos]; simp

/-- R194: a cut write leaves one of the three stores that it may leave. -/
theorem State.cutWrite_mem (s : State) (power : Bool) : (s.cutWrite power).store ∈ s.store.afterCut := by
  unfold State.cutWrite Store.afterCut
  cases hw : s.store.writing with
  | none => simp
  | some x =>
    simp only [Option.isSome_some, if_true, Store.cut, hw]
    split
    · simp
    · unfold Store.cutTo; split <;> simp

/-- R194: a cut write changes the store alone, and draws from the free values. -/
theorem State.cutWrite_eq (s : State) (power : Bool) :
    s.cutWrite power =
      { s with store := (s.cutWrite power).store, freeCount := (s.cutWrite power).freeCount } := by
  unfold State.cutWrite; split <;> rfl

/-- R193 and R198: each block that is not good has its bit of the defaulted set. -/
theorem Store.failed_spec (m : Store) :
    (m.failed.getLsbD 0 = true ↔ m.params = none) ∧ (m.failed.getLsbD 1 = true ↔ m.cals = none)
      ∧ (m.failed.getLsbD 2 = true ↔ m.filters = none) ∧ (m.failed.getLsbD 3 = true ↔ m.baseline = none)
      ∧ (m.failed.getLsbD 4 = true ↔ m.hours = none) ∧ (m.failed.getLsbD 5 = true ↔ m.mode = none) := by
  have key (a b c d e f : Bool) :
      let x := BitVec.ofNat 6 (setOf [a, b, c, d, e, f])
      x.getLsbD 0 = a ∧ x.getLsbD 1 = b ∧ x.getLsbD 2 = c ∧ x.getLsbD 3 = d ∧ x.getLsbD 4 = e ∧ x.getLsbD 5 = f := by
    revert a b c d e f; decide
  obtain ⟨h0, h1, h2, h3, h4, h5⟩ := key m.params.isNone m.cals.isNone m.filters.isNone m.baseline.isNone m.hours.isNone
    m.mode.isNone
  unfold Store.failed
  simp only [h0, h1, h2, h3, h4, h5, Option.isNone_iff_eq_none, and_self]

/-- R180: a fitted-at value is corrected where one lies above the loaded hours. -/
theorem Store.correctsFitting_iff (m : Store) :
    m.correctsFitting = true ↔
      ∃ i r, (m.filters.getD .default).slot i = some r ∧ m.hours.getD 0 < r.fittedAt := by
  simp only [Store.correctsFitting, Bool.or_eq_true, Option.any_eq_true, decide_eq_true_eq]
  constructor
  · rintro (⟨r, h, k⟩ | ⟨r, h, k⟩)
    · exact ⟨.supply, r, h, k⟩
    · exact ⟨.extract, r, h, k⟩
  · rintro ⟨i, r, h, k⟩
    cases i
    · exact .inl ⟨r, h, k⟩
    · exact .inr ⟨r, h, k⟩

/-- R195: the blocks as a reset loads them. -/
theorem State.reload_resetTo (s : State) (cause : ResetCause) (straps : BitVec 2) :
    s.ResetTo s.store cause straps (s.reload cause straps) := by
  have hf := s.store.failed_spec
  have hc := s.store.correctsFitting_iff
  refine ⟨⟨rfl, rfl, rfl, rfl, rfl⟩, ⟨rfl, ?_, hf⟩, ⟨rfl, rfl, rfl, rfl, rfl, rfl⟩, ⟨rfl, rfl, rfl⟩,
    ⟨rfl, rfl, rfl, ?_⟩, ⟨?_, rfl⟩, ⟨?_, ?_, ?_⟩, ?_, ⟨?_, rfl, rfl, rfl, rfl⟩,
    ⟨rfl, ?_, rfl, rfl, ?_, rfl, rfl, rfl, rfl, rfl, rfl, ?_⟩, rfl, rfl, fun h => ?_, fun h => ?_⟩
  · show Notice.reset.flag ||| (if s.store.failed = 0 then 0 else Notice.store.flag) = if s.store.failed = 0 then _ else _
    split
    · exact BitVec.or_zero
    · rfl
  · intro g hg; simp [State.reload, DemandTable.afterReset] at hg; exact hg
  · intro n; simp [State.reload, Bus.afterReset, Station.fresh, Reading.invalid]
  · intro x; cases x <;> rfl
  · intro x; cases x <;> rfl
  · intro x; cases x <;> rfl
  · intro x; cases x <;> simp [State.reload, Humidity.afterReset, Humidity.source, Source.afterReset]
  · intro x; cases x <;> rfl
  · intro x; cases x <;> rfl
  · intro x; cases x <;> rfl
  · show (if (s.store.baseline.getD .default).pn0.isSome = true then none else _) =
      if (s.store.baseline.getD .default).pn0 = none then _ else none
    cases (s.store.baseline.getD .default).pn0 <;> rfl
  · exact if_pos (hc.2 h)
  · exact if_neg fun k => h (hc.1 k)

/-- R195: a reset reads of the state before it the queue, the count of free values and the store alone. -/
theorem State.ResetTo.of_eq {s u t : State} {m : Store} {cause : ResetCause} {straps : BitVec 2}
    (h : u.ResetTo m cause straps t) (hp : u.pending = s.pending) : s.ResetTo m cause straps t :=
  ⟨⟨h.1.1.trans hp, h.1.2⟩, h.2⟩

/-- R194: a cut write leaves the queue. -/
@[simp] theorem State.cutWrite_pending (s : State) (power : Bool) : (s.cutWrite power).pending = s.pending := by
  rw [State.cutWrite_eq]

/-- R195: a restart is a reset from what the write in progress left. -/
theorem State.restart_resetTo (s : State) (cause : ResetCause) (straps : BitVec 2) :
    ∃ m ∈ s.store.afterCut, s.ResetTo m cause straps (s.restart cause straps) :=
  ⟨_, s.cutWrite_mem (cause = .power), (State.reload_resetTo _ cause straps).of_eq (s.cutWrite_pending _)⟩

/-- R195: a reset with the cause COMMAND is a reset from what the write in progress left. -/
theorem State.commandReset_resetTo (s : State) :
    ∃ m ∈ s.store.afterCut, ∃ straps, s.ResetTo m .command straps s.commandReset :=
  ⟨_, s.cutWrite_mem false, _, (State.reload_resetTo _ .command _).of_eq (s.cutWrite_pending _)⟩

end Sys2Proof.Machine
end

