-- ==== Sys2Proof/WellFormed.lean ====
section
/-! DEFINITION. Which terms of `Instr` a sender can send: the checks on what a command or event brings in. -/

namespace Sys2Proof

/-- R13: a contact's debounced level changes at the last of four consecutive equal samples. -/
def endsInFourEqual (samples : List Bool) : Bool :=
  match samples.reverse with
  | a :: b :: c :: d :: _ => a == b && b == c && c == d
  | _ => false

/-- The check of a term:
* a BAD_COMMAND is a write that R184 refuses by its length or its code;
* the samples of a CONTACT_LEVEL_CHANGE end in four equal ones (R13);
* a TACH_WINDOW_CLOSE brings the 20 000 samples of one second at 20 kHz (R15, R16);
* a REPORT_RECEIVED brings the start bit of a reply, or the 13 characters of a complete REPORT frame (R51, R203).
The fields of the other commands may hold any value: the owning rules say what each value does. -/
def Instr.wellFormed : Instr → Bool
  | .badCommand bytes => decodeWrite bytes == .badLength || decodeWrite bytes == .badCommand
  | .contactLevelChange _ samples => endsInFourEqual samples
  | .tachWindowClose _ samples => samples.length == 20000
  | .reportReceived chars => chars.all (·.length == 13)
  | _ => true

end Sys2Proof
end

