-- ==== Sys2Proof/Tests/Slice0.lean ====
section
/-! SUPPORT. The model's own tests: the well-formedness checks, the manual's worked cases, small tests of the commands
and events, and a witness for the hypotheses of each statement. Expected results are the manual's own figures, or are
worked by hand from its rules. -/

set_option maxRecDepth 100000

namespace Sys2Proof.Tests

open Sys2Proof Sys2Proof.Machine

/-! ### States and readers -/

/-- The part after its first reset, once loading has ended. -/
def ready : State := { State.reset with link := { State.reset.link with loading := false } }

/-- The part without the supply. -/
def dark : State := { State.reset with life := .off false }

/-- The part held in reset. -/
def held : State := { State.reset with life := .held .pin }

/-- A clean filter with a given baseline. -/
def cleanFilter : FilterRecord :=
  { grade := .medium, fittedAt := 0, interval := 4380, pn0 := some 400, origin := some .given, learnCount := 0
    learnSum := 0, latestPn := none, latestRatio := none, volume := 0, litres := 0, state := .service, causes := 0
    lastValid := none }

/-- A fan that holds a duty. -/
def fanAt (duty : Nat) : Fan := ⟨.running, .auto, duty, duty, none, 0, 0, 0, 0⟩

/-- The house of section 6.12 in RUN at base level, both filters fitted, the fans steady. -/
def home : State :=
  { ready with
    clock := ⟨40000, 40⟩
    resolver := ⟨⟨50, .base, 0, 200, 210, 60, 200, 210, 0, 0⟩, .run, .run, .run⟩
    drive := { ready.drive with sup := fanAt 440, ext := fanAt 460, elapsed := 30000, steady := true }
    filters := ⟨some cleanFilter, some cleanFilter⟩ }

/-- The same house in COMMISSION. -/
def installing : State := { home with resolver := { home.resolver with mode := .commission, pending := .commission } }

/-- The same house in STANDBY, its fans stopped. -/
def asleep : State :=
  { ready with resolver := { ready.resolver with mode := .standby, pending := .standby } }

/-- A LINK boost of tag 4, a press of station 1, a cooker record with its contact closed and a HELD HUMIDITY record. -/
def linkRecord : DemandRecord :=
  ⟨0, 1, .link, .boost, 80, some 4, .minutes 30, some 1800, 1, 10, false⟩

def pressRecord : DemandRecord :=
  ⟨1, 1, .station 0, .boost, 90, none, .minutes 30, some 1, 2, 20, false⟩

def cookerRecord : DemandRecord := ⟨2, 1, .cooker, .boost, 100, none, .absent, none, 3, 30, false⟩

def dampRecord : DemandRecord := ⟨3, 1, .humidity, .boost, 70, none, .absent, none, 4, 40, true⟩

/-- A demand table of these four. -/
def table : DemandTable :=
  { live := [linkRecord, pressRecord, cookerRecord, dampRecord]
    gens := Vector.ofFn fun e => if e.val < 4 then 1 else 0
    freeList := (List.finRange 24).drop 4
    counter := 4 }

/-- The part after its first reset with that table. -/
def asked : State := { ready with demand := table }

/-- An item of the next state. -/
def seen {α : Type} (f : State → α) (a : Answer) : Option α :=
  match a with
  | .next t => some (f t)
  | .fault _ | .refused _ => none

/-- The response that a command leaves. -/
def answer (a : Answer) : Option (Status × List Byte) :=
  seen (fun t => (t.link.response.status, t.link.response.data)) a

/-! ### Terms that no sender sends -/

theorem test_badCommand_is_a_refused_write :
    Instr.wellFormed (.badCommand []) = false ∧ Instr.wellFormed (.badCommand [0x30, 0]) = false
      ∧ Instr.wellFormed (.badCommand [0x30]) = true ∧ Instr.wellFormed (.badCommand [0x06, 0]) = true := by decide

theorem test_contact_change_ends_in_four_equal :
    Instr.wellFormed (.contactLevelChange .cooker [false, false, false]) = false
      ∧ Instr.wellFormed (.contactLevelChange .night [false, true, false, false]) = false
      ∧ Instr.wellFormed (.contactLevelChange .night [true, false, false, false, false]) = true := by decide

theorem test_tach_window_is_a_second :
    Instr.wellFormed (.tachWindowClose .sup []) = false
      ∧ Instr.wellFormed (.tachWindowClose .sup (List.replicate 20 false)) = false := by decide

theorem test_report_has_thirteen_characters :
    Instr.wellFormed (.reportReceived (some [0x7E])) = false
      ∧ Instr.wellFormed (.reportReceived (some (List.replicate 13 0))) = true := by decide

/-! ### Words written out from the formats chapter -/

theorem test_decode_file_demand :
    decodeWrite [0x01, 5, 1, 60, 0x1E, 0x00, 7] = .command (.fileDemand 1 60 30 7) := by decide

theorem test_decode_amend_demand :
    decodeWrite [0x02, 6, 0x17, 0x01, 0x03, 80, 0xA0, 0x05] = .command (.amendDemand 0x0117 3 80 1440) := by decide

theorem test_decode_reads :
    decodeWrite [0x0A, 1, 6] = .command (.readStation 6) ∧ decodeWrite [0x0B, 0] = .command .readHumidity
      ∧ decodeWrite [0x08, 0] = .command .readResolution ∧ decodeWrite [0x13, 1, 3] = .command (.readTap 3)
      ∧ decodeWrite [0x1C, 0] = .command .readFrost ∧ decodeWrite [0x26, 0] = .command .readFans := by decide

theorem test_decode_settings :
    decodeWrite [0x20, 5, 30, 0x06, 0xFF, 0xFF, 0xFF] = .command (.setParam 30 (-250))
      ∧ decodeWrite [0x22, 1, 3] = .command (.setMode 3)
      ∧ decodeWrite [0x23, 4, 0, 1, 0xE8, 0x03] = .command (.setSource 0 1 1000)
      ∧ decodeWrite [0x24, 6, 1, 5, 0xE8, 0x03, 0xE0, 0x01] = .command (.writeCal 1 5 1000 480) := by decide

theorem test_decode_filters_and_measures :
    decodeWrite [0x18, 6, 0, 1, 0, 0, 0x90, 0x01] = .command (.fitFilter 0 1 0 400)
      ∧ decodeWrite [0x10, 1, 2] = .command (.measure 2) ∧ decodeWrite [0x1D, 0] = .command .relearnExchanger := by decide

theorem test_decode_refuses :
    decodeWrite [0x30, 1, 0] = .badLength ∧ decodeWrite [0x30] = .badLength ∧ decodeWrite [0x06, 0] = .badCommand
      ∧ decodeWrite (0x06 :: 33 :: List.replicate 33 0) = .badLength ∧ decodeWrite [] = .empty := by decide

theorem test_poll_frame : pollFrame 0x01 0x00 0x32 = [0x7E, 0x01, 0x01, 0x02, 0x00, 0x32, 0xF0] := by decide

theorem test_crc_after_each_byte :
    crc [0x01] = 0x9D ∧ crc [0x01, 0x01] = 0x44 ∧ crc [0x01, 0x01, 0x02] = 0x9B ∧ crc [0x01, 0x01, 0x02, 0x00] = 0xD3 := by
  decide

/-! ### The manual's worked arithmetic -/

theorem test_rounding :
    roundDiv 13988 100 = 140 ∧ roundDiv 100464 100 = 1005 ∧ roundDiv 655 2 = 328 ∧ symRound (-5) 2 = -3
      ∧ symRound (-24) 10 = -2 := by decide

theorem test_moisture_worked :
    moisture 213 624 = 1005 ∧ moisture (-80) 880 = 172 ∧ moisture 220 550 = 927 ∧ moisture 200 350 = 515
      ∧ moisture (-400) 1000 = 8 ∧ moisture 600 1000 = 15245 := by decide

theorem test_dew_point_worked :
    dewPoint 1005 = 140 ∧ dewPoint 927 = 127 ∧ dewPoint 515 = 42 ∧ dewPoint 172 = -93 ∧ dewPoint 377 = 0
      ∧ dewPoint 15244 = 600 ∧ dewPoint 7 = -400 := by decide

theorem test_rise_levels_worked :
    riseLevel .default 80 = 68 ∧ riseLevel .default 98 = 71 ∧ riseLevel .default 40 = 59 ∧ riseLevel .default 160 = 85
      ∧ riseLevel .default 168 = 85 := by decide

theorem test_duties_worked :
    CalTable.dutyFor .default 256 = 552 ∧ CalTable.dutyFor .default 316 = 672 ∧ CalTable.dutyFor .default 60 = 200
      ∧ CalTable.dutyFor .default 500 = 1000 ∧ CalTable.flowAt .default 452 = 206 ∧ CalTable.flowAt .default 100 = 40 := by
  decide

theorem test_trim_worked :
    nextTrim 1000 200 188 = 1032 ∧ nextTrim 1032 200 198 = 1032 ∧ nextTrim 1032 200 212 = 1003
      ∧ nextTrim 1250 200 100 = 1250 := by decide

theorem test_orifice_worked :
    orificeFlow .default 625 = 332 ∧ orificeFlow .default 480 = 291 ∧ orificeFlow .default 1 = 13
      ∧ orificeFlow .default 5000 = 939 := by decide

theorem test_normalised_worked :
    judgeElement .default 480 false 332 = (.valid, some 697) ∧ judgeElement .default 300 false 210 = (.valid, some 1088)
      ∧ judgeElement .default 95 false 84 = (.lowFlow, none) ∧ judgeElement .default 5000 true 200 = (.overRange, none) := by
  decide

theorem test_baselines_and_ratios_worked :
    ratioOf 697 385 = 181 ∧ ratioOf 65535 10 = 999 ∧ ratioOf 43 40 = 108 ∧ baselineOf 318 = 40 ∧ baselineOf 3068 = 384 := by
  decide

theorem test_limit_orders_worked :
    limitOrders .default 8 = (4, 0) ∧ limitOrders .default 1 = (18, 0) ∧ limitOrders .default (-3) = (26, 0)
      ∧ limitOrders .default (-17) = (50, 0) ∧ limitOrders .default 15 = (0, 0) := by decide

/-- R203: a REPORT of station 1: WET, no fault, 21.5 °C, 68.4 %RH, short 12, long 3. -/
def report1 : List Byte :=
  [0x7E, 0x01, 0x81, 8, 1, 0, 0xD7, 0x00, 0xAC, 0x02, 12, 3,
    crc [0x01, 0x81, 8, 1, 0, 0xD7, 0x00, 0xAC, 0x02, 12, 3]]

theorem test_report_fields :
    decodeReport 1 report1 = some ⟨.wet, false, some 215, some 684, 12, 3⟩ ∧ decodeReport 2 report1 = none := by decide

/-! ### The demand commands -/

theorem test_file_demand :
    answer (exec (.fileDemand 1 80 30 4) ready) = some (.ok, [0, 1, 0])
      ∧ answer (exec (.fileDemand 1 80 30 4) asked) = some (.ok, [0, 1, 1])
      ∧ answer (exec (.fileDemand 0 101 1441 9) asked) = some (.clamped, [4, 1, 0])
      ∧ answer (exec (.fileDemand 3 80 30 4) asked) = some (.badValue, []) := by decide

theorem test_file_demand_raises_the_view :
    seen (fun t => (t.resolver.view.d, t.resolver.view.source, t.resolver.view.handle, t.resolver.view.s0))
      (exec (.fileDemand 1 90 30 4) home) = some (90, .boost, 0x0100, 360) := by decide

theorem test_amend_demand :
    answer (exec (.amendDemand 0x0100 3 70 0) asked) = some (.ok, [70, 0, 0, 0xFF, 0xFF, 0xFF, 0xFF])
      ∧ answer (exec (.amendDemand 0x0100 2 70 1500) asked) = some (.clamped, [80, 0xA0, 5, 0x80, 0x51, 1, 0])
      ∧ answer (exec (.amendDemand 0x0101 3 70 0) asked) = some (.notAllowed, [])
      ∧ answer (exec (.amendDemand 0x0200 3 70 0) asked) = some (.noSuch, [])
      ∧ answer (exec (.amendDemand 0x0100 4 70 0) asked) = some (.badValue, []) := by decide

theorem test_retire_demand :
    seen (fun t => (t.demand.live, t.demand.freeList.getLast?, t.notices.flags)) (exec (.retireDemand 0x0100) asked) =
        some ([pressRecord, cookerRecord, dampRecord], some 0, 0b100000001)
      ∧ answer (exec (.retireDemand 0x0102) asked) = some (.notAllowed, []) := by decide

theorem test_read_demand :
    answer (exec (.readDemand 0x0100) { asked with clock := ⟨100000, 100⟩ }) =
      some (.ok, [0, 1, 0, 1, 80, 4, 2, 30, 0, 8, 7, 0, 0, 1, 0, 0, 0, 90, 0, 0, 0]) := by decide

theorem test_list_demands :
    answer (exec (.listDemands 0) asked) = some (.ok, [4, 4, 0, 1, 1, 1, 2, 1, 3, 1])
      ∧ answer (exec (.listDemands 3) asked) = some (.ok, [4, 1, 3, 1])
      ∧ answer (exec (.listDemands 4) asked) = some (.ok, [4, 0]) := by decide

theorem test_demand_expiry_sets_the_notice_for_link_alone :
    seen (fun t => (t.demand.live.length, t.notices.has .demand)) (exec (.demandExpiry 0x0100) asked) = some (3, true)
      ∧ seen (fun t => (t.demand.live.length, t.notices.has .demand)) (exec (.demandExpiry 0x0101) asked) =
        some (3, false) := by decide

/-! ### Reads, parameters, notices, modes and resets -/

theorem test_read_resolution :
    answer (exec .readResolution home) =
      some (.ok, [1, 1, 1, 50, 2, 0, 0, 200, 0, 210, 0, 200, 0, 210, 0, 60, 0, 0, 0, 0]) := by decide

theorem test_read_sensors_before_the_first_second :
    (answer (exec .readSensors ready)).map (fun a => (a.2.take 6, a.2.length)) =
      some ([0, 0xFF, 0x7F, 0, 0xFF, 0x7F], 31) := by decide

theorem test_read_station :
    answer (exec (.readStation 0) ready) = some (.badValue, [])
      ∧ answer (exec (.readStation 7) ready) = some (.badValue, [])
      ∧ (answer (exec (.readStation 6) ready)).map (fun a => (a.1, a.2.length)) = some (.ok, 18) := by decide

theorem test_read_cal :
    answer (exec (.readCal 1) ready) =
      some (.ok, [1, 200, 0, 80, 0, 0x68, 1, 160, 0, 8, 2, 240, 0, 0xA8, 2, 0x40, 1, 0x48, 3, 0x90, 1, 0xE8, 3, 0xE0, 1])
      ∧ answer (exec (.readCal 2) ready) = some (.badValue, []) := by decide

theorem test_read_fans :
    (answer (exec .readFans home)).map (fun a => (a.2.take 12, a.2.length)) =
      some ([1, 0, 0xFF, 0xFF, 0xB8, 1, 0xB8, 1, 0, 0, 200, 0], 32) := by decide

theorem test_get_param :
    answer (exec (.getParam 1) ready) = some (.ok, [1, 0x90, 1, 0, 0])
      ∧ answer (exec (.getParam 30) ready) = some (.ok, [30, 0x06, 0xFF, 0xFF, 0xFF])
      ∧ answer (exec (.getParam 50) ready) = some (.badValue, []) := by decide

theorem test_set_param :
    answer (exec (.setParam 42 300) ready) = some (.clamped, [42, 230, 0, 0, 0])
      ∧ answer (exec (.setParam 49 0xFFFFFFFF) ready) = some (.clamped, [49, 0xFF, 1, 0, 0])
      ∧ seen (fun t => (t.params.get .baseLevel, t.store.queue)) (exec (.setParam 2 60) ready) =
        some (60, [.parameters])
      ∧ seen (fun t => t.store.queue) (exec (.setParam 2 50) ready) = some [] := by decide

theorem test_set_param_reaches_the_view :
    seen (fun t => (t.resolver.view.d, t.drive.sup.requested)) (exec (.setParam 2 60) home) = some (60, 520) := by decide

theorem test_set_param_enables_stations :
    seen (fun t => t.bus.stations.toList.map (·.state)) (exec (.setParam 48 5) ready) =
      some [.seeking, .unconfigured, .seeking, .unconfigured, .unconfigured, .unconfigured] := by decide

theorem test_notices :
    answer (exec .readNotices ready) = some (.ok, [1, 1, 0, 0, 0, 0x3F, 0, 0, 0, 0, 0, 0, 0, 0])
      ∧ answer (exec (.clearNotices 1) ready) = some (.ok, [0, 1])
      ∧ answer (exec (.clearNotices 512) ready) = some (.badValue, []) := by decide

theorem test_attn_needs_an_unmasked_flag :
    ready.attn = true ∧ State.reset.attn = false ∧ State.attn { ready with notices := ⟨0, .pin, 0⟩ } = false := by decide

theorem test_set_mode :
    answer (exec (.setMode 1) ready) = some (.ok, [0, 1, 1]) ∧ answer (exec (.setMode 3) ready) = some (.ok, [0, 3, 2])
      ∧ answer (exec (.setMode 0) ready) = some (.badValue, []) := by decide

theorem test_standby_stops_the_fans_at_once :
    seen (fun t => (t.resolver.mode, t.drive.sup.commanded, t.drive.ext.state, t.resolver.view.d))
      (exec (.setMode 2) home) = some (.standby, 0, .idle, 0) := by decide

theorem test_startup_ends_in_the_pending_mode :
    seen (fun t => (t.resolver.mode, t.drive.sup.commanded))
      (exec .startupEnd { home with resolver := ⟨.zero 60, .startup, .run, .run⟩, drive := .afterReset .default }) =
        some (.run, 200) := by decide

theorem test_bad_commands :
    answer (exec (.badCommand [0x06, 0]) ready) = some (.badCommand, [])
      ∧ answer (exec (.badCommand [0x10]) ready) = some (.badLength, [])
      ∧ seen id (exec (.badCommand []) ready) = some ready := by decide

theorem test_unacknowledged_commands_change_nothing :
    seen id (exec .readNotices State.reset) = some State.reset ∧ seen id (exec (.setMode 1) dark) = some dark := by decide

theorem test_reset_loads_the_store :
    seen (fun t => (t.params.get .baseLevel, t.notices, t.resolver.stored))
      (exec .reset { ready with store := { Store.blank with
        params := some (Params.default.set .baseLevel 61), cals := some .default, filters := some .default
        baseline := some .default, hours := some 9, mode := some .run } }) = some (61, ⟨1, .command, 0⟩, .run) := by
  decide

theorem test_power_reset_of_a_new_part : seen id (exec (.powerReset 0) State.reset) = some State.reset := by decide

theorem test_pin_reset_takes_the_straps :
    seen (fun t => (t.link.straps, t.notices.cause, t.clock)) (exec (.pinReset (some 2)) home) = some (2, .pin, ⟨0, 0⟩)
      ∧ seen (fun t => (t.life, t.link.straps, t.notices.cause)) (exec (.pinReset (some 2)) held) =
        some (.running, 2, .pin) := by decide

theorem test_rst_n_low_holds_the_part :
    seen (fun t => (t.life, t.answering)) (exec (.pinReset none) home) = some (.held .pin, false)
      ∧ seen id (exec .loadingEnd held) = some held
      ∧ seen (fun t => t.life) (exec (.powerReset 1) { dark with life := .off true }) = some (.held .power) := by decide

theorem test_factory_clear :
    answer (exec .factoryClear home) = some (.wrongMode, [])
      ∧ seen (fun t => (t.store.clearing, t.answering)) (exec .factoryClear asleep) = some (some Block.all, false) := by
  decide

theorem test_store_writes :
    seen (fun t => (t.store.writing, t.store.queue))
        (exec .storeWriteStart { ready with hours := 7, store := { Store.blank with queue := [.hours, .parameters] } }) =
      some (some (.hours 7), [.parameters])
      ∧ seen (fun t => (t.store.hours, t.store.writing))
        (exec .storeWriteComplete { ready with store := { Store.blank with writing := some (.hours 7) } }) =
      some (some 7, none) := by decide

theorem test_loading_end : seen id (exec .loadingEnd State.reset) = some ready := by decide

theorem test_power_loss :
    seen (fun t => (t.life, t.answering)) (exec .powerLoss home) = some (.off false, false) := by decide

theorem test_straps_give_the_address :
    ready.hostRead 0x4C 3 = some [0x02, 0, 0] ∧ ready.hostRead 0x4D 3 = none ∧ State.reset.hostRead 0x4C 3 = none
      ∧ State.acknowledges { ready with link := { ready.link with straps := 3 } } 0x4F = true := by decide

/-! ### Sensing, fans and the station bus -/

theorem test_analog_samples :
    seen (fun t => (t.sensing.oa, t.notices.has .sensor)) (exec (.analogSample .oa (Vector.replicate 8 (-420))) ready) =
        some (⟨.valid, some (-400), 0, some (-400)⟩, false)
      ∧ seen (fun t => (t.sensing.oa, t.notices.has .sensor)) (exec (.analogSample .oa (Vector.replicate 8 701)) ready) =
        some (⟨.invalid, none, 0, none⟩, true) := by decide

theorem test_sample_mean_rounds_away_from_zero :
    sampleMean #v[-3, -2, -3, -2, -3, -2, -3, -2] = -3 ∧ sampleMean #v[2, 3, 2, 3, 2, 3, 2, 3] = 3
      ∧ sampleMean #v[2, 2, 2, 2, 2, 3, 3, 3] = 2 := by decide

/-- A channel in HELD. -/
def holding : State :=
  { ready with sensing := { ready.sensing with eha := ⟨.held, some 31, 7, some 31⟩ } }

theorem test_hold_runs_out :
    seen (fun t => (t.sensing.eha, t.notices.has .sensor)) (exec (.holdTimerExpiry .eha) holding) =
      some (⟨.invalid, none, 0, some 31⟩, true) := by decide

theorem test_cooker_contact :
    seen (fun t => t.demand.live.map (·.origin))
        (exec (.contactLevelChange .cooker [false, false, true, false, false, false, false]) ready) = some [.cooker]
      ∧ seen (fun t => (t.sensing.cooker, t.demand.live.length))
        (exec (.contactLevelChange .cooker [false, false, false]) ready) = some (⟨false, 3⟩, 0) := by decide

theorem test_cooker_run_on :
    seen (fun t => t.demand.live.map fun r => (r.duration, r.remaining))
      (exec (.contactLevelChange .cooker [true, true, true, true])
        { asked with
          sensing := { ready.sensing with cooker := ⟨true, 0⟩ }
          demand := { table with live := [cookerRecord], freeList := (List.finRange 24).erase 2 } }) =
      some [(.minutes 10, some 600)] := by decide

theorem test_tach_pulses :
    TachInput.close ⟨some false, false, 0, 0⟩ [true, true, false, false, true, false, false, true, true, false] =
      ⟨some true, true, 0, 60⟩ := by decide

theorem test_stall_rests_the_fan :
    seen (fun t => (t.drive.sup.state, t.drive.sup.rest, t.notices.has .fan, t.resolver.view.s1, t.resolver.view.e1))
        (exec (.tachWindowClose .sup []) { home with drive := { home.drive with sup := { fanAt 440 with stall := 14 } } }) =
        some (.faultRest, 60, true, 0, 60)
      ∧ seen (fun t => t.drive.sup.stall) (exec (.tachWindowClose .sup []) home) = some 1 := by decide

/-- The supply fan at rest after a stall, and locked. -/
def resting : State :=
  { home with drive := { home.drive with sup := ⟨.faultRest, .auto, 0, 0, none, 0, 1, 2, 0⟩ } }

def locked : State :=
  { home with drive := { home.drive with sup := ⟨.locked, .auto, 0, 0, none, 0, 0, 3, 0⟩ } }

theorem test_rest_ends_and_lockout_clears :
    seen (fun t => (t.drive.sup.state, t.drive.sup.attempts, t.drive.sup.commanded)) (exec (.restEnd .sup) resting) =
        some (.running, 3, 200)
      ∧ seen (fun t => (t.drive.sup.state, t.drive.sup.attempts)) (exec (.clearFanFault 0) locked) = some (.running, 0)
      ∧ seen (fun t => t.drive.sup.attempts)
        (exec (.cleanRunEnd .sup) { home with drive := { home.drive with sup := { fanAt 440 with attempts := 2 } } }) =
        some 0 := by decide

theorem test_slew_step :
    seen (fun t => (t.drive.sup.commanded, t.drive.sup.step, t.drive.steady, t.drive.elapsed))
        (exec (.slewStep .sup) { home with drive := { home.drive with
          sup := { fanAt 440 with commanded := 400, step := some 1 } } }) = some (401, some 100, false, 0)
      ∧ seen (fun t => (t.drive.sup.commanded, t.drive.sup.state))
        (exec (.slewStep .sup) { home with drive := { home.drive with
          sup := { fanAt 200 with requested := 0, step := some 1 } } }) = some (0, .idle) := by decide

theorem test_steadiness_reached :
    seen (fun t => t.drive.steady)
      (exec .steadinessReached { home with drive := { home.drive with steady := false } }) = some true := by decide

/-- The house with its preheater at 40 %. -/
def warming : State :=
  { home with drive := { home.drive with preheater := ⟨.direct 40, 40, 0, false⟩ } }

theorem test_preheat_period :
    seen (fun t => (t.drive.preheater.pin, t.drive.preheater.periodStart)) (exec .preheatPeriodStart warming) =
        some (true, 40000)
      ∧ seen (fun t => t.drive.preheater.pin)
        (exec .preheatOnTimeEnd { warming with drive := { home.drive with preheater := ⟨.direct 40, 40, 0, true⟩ } }) =
        some false
      ∧ seen (fun t => t.drive.preheater.pin)
        (exec .preheatOnTimeEnd { warming with drive := { home.drive with preheater := ⟨.direct 100, 100, 0, true⟩ } }) =
        some true := by decide

theorem test_set_source :
    answer (exec (.setSource 0 1 150) installing) = some (.clamped, [0, 1, 150, 0, 200, 0])
      ∧ answer (exec (.setSource 2 1 120) installing) = some (.clamped, [2, 1, 100, 0, 0xFF, 0xFF])
      ∧ answer (exec (.setSource 0 1 150) home) = some (.wrongMode, [])
      ∧ answer (exec (.setSource 3 1 150) home) = some (.badValue, []) := by decide

theorem test_write_cal :
    seen (fun t => (t.link.response.status, t.drive.sup.requested, t.store.queue)) (exec (.writeCal 0 1 400 170) home) =
        some (.ok, 451, [.calibrations])
      ∧ answer (exec (.writeCal 0 1 520 170) home) = some (.badValue, [])
      ∧ answer (exec (.writeCal 0 6 520 170) home) = some (.badValue, []) := by decide

/-- Station 1 enabled: due to be polled, on the line, and awaited. -/
def seeking : State :=
  { home with bus := { ready.bus with stations := ready.bus.stations.set 0 { Station.fresh .seeking with marked := true } } }

def polling : State :=
  { seeking with bus := { seeking.bus with exchange := .sending 0 [] 4 } }

def awaiting : State :=
  { seeking with bus := { seeking.bus with exchange := .window 0 5 false } }

/-- Station 1 ONLINE and awaited, two replies missed, its short count last read as 11. -/
def missing : State :=
  { home with
    bus :=
      { stations := ready.bus.stations.set 0
          { Station.fresh .online with
            kind := some .wet, misses := 2, presses := some (11, 3), temperature := ⟨.valid, some 200⟩ }
        exchange := .window 0 5 false } }

/-- Station 1 LOST with a HELD temperature. -/
def gone : State :=
  { home with
    bus :=
      { stations := ready.bus.stations.set 0 { Station.fresh .lost with hold := 1, temperature := ⟨.held, some 200⟩ }
        exchange := .idle } }

theorem test_poll_round_marks :
    seen (fun t => t.bus.stations.toList.map (·.marked)) (exec .pollRoundStart seeking) =
      some [true, false, false, false, false, false] := by decide

theorem test_poll_slot_sends_the_worked_frame :
    seen (fun t => (t.bus.exchange, t.bus.stations[0].marked, t.sbde)) (exec .pollSlot seeking) =
      some (.sending 0 [0x7E, 0x01, 0x01, 0x02, 0x00, 0x32, 0xF0] 0, false, true) := by decide

theorem test_poll_end_opens_the_window :
    seen (fun t => t.bus.exchange) (exec .pollEnd polling) = some (.window 0 0 false) := by decide

theorem test_report_received :
    seen (fun t => (t.bus.stations[0].state, t.bus.stations[0].temperature, t.bus.stations[0].humidity,
        t.notices.has .station, t.demand.live)) (exec (.reportReceived (some report1)) awaiting) =
      some (.online, ⟨.valid, some 215⟩, ⟨.valid, some 684⟩, true, []) := by decide

theorem test_short_press_files_a_boost :
    seen (fun t => t.demand.live.map fun r => (r.origin, r.level, r.remaining)) (exec (.reportReceived (some report1)) missing) =
      some [(.station 0, 90, some 1800)] := by decide

/-- A reply that begins at 10 ms is not late at 17 ms (13 characters take 6.77 ms). -/
theorem test_reply_begins_at_its_start_bit :
    seen (fun t => t.bus.exchange)
        (exec (.reportReceived none) { awaiting with bus := { awaiting.bus with exchange := .window 0 10 false } }) =
        some (.window 0 10 true)
      ∧ seen (fun t => t.bus.exchange)
        (step { awaiting with pending := [], bus := { awaiting.bus with exchange := .window 0 14 true } }) =
        some (.window 0 15 true)
      ∧ State.due { awaiting with bus := { awaiting.bus with exchange := .window 0 16 true } } = []
      ∧ seen (fun t => t.bus.exchange) (exec (.reportReceived none) polling) = some polling.bus.exchange := by decide

/-- A late reply: 16 ms after the poll, not begun and begun by 15 ms. -/
theorem test_reply_begins_within_15_ms :
    seen (fun t => t.bus.stations[0].misses)
        (exec (.reportReceived (some report1)) { awaiting with bus := { awaiting.bus with exchange := .window 0 16 false } }) = some 1
      ∧ seen (fun t => t.bus.stations[0].state)
        (exec (.reportReceived (some report1)) { awaiting with bus := { awaiting.bus with exchange := .window 0 16 true } }) =
        some .online
      ∧ seen (fun t => t.pending) (step { awaiting with bus := { awaiting.bus with exchange := .window 0 15 false } }) =
        some [.replyTimeout]
      ∧ State.due { awaiting with bus := { awaiting.bus with exchange := .window 0 15 true } } = [] := by decide

theorem test_third_miss_loses_the_station :
    seen (fun t => (t.bus.stations[0].state, t.bus.stations[0].temperature.status, t.bus.stations[0].hold))
        (exec .replyTimeout missing) = some (.lost, .held, 600)
      ∧ seen (fun t => t.bus.stations[0].misses) (exec .replyBadCharacter awaiting) = some 1 := by decide

theorem test_station_hold_runs_out :
    seen (fun t => (t.bus.stations[0].temperature, t.notices.has .sensor))
      (exec (.stationHoldExpiry 0) gone) = some (⟨.invalid, none⟩, true) := by decide

/-! ### Humidity -/

/-- The extract source judged from 22.0 °C, with the given record of it and the given humidity read. -/
def damp (x : Source) (h : Int) : State :=
  { home with
    sensing := { ready.sensing with ea := ⟨.valid, some 220, 0, some 220⟩, extractRh := ⟨.valid, some h, 0, some h⟩ }
    humidity := { ready.humidity with extract := x } }

/-- A QUIET source of baseline 55.2 %RH. -/
def quiet : Source := { Source.afterReset with state := .quiet, baseline := some 552, arm := 20, last := some (552, 220) }

theorem test_quiet_baseline_drifts :
    seen (fun t => t.humidity.extract.baseline) (exec (.humiditySample .extract) (damp quiet 568)) = some (some 553)
      ∧ seen (fun t => t.humidity.extract.baseline) (exec (.humiditySample .extract) (damp quiet 559)) = some (some 552) := by
  decide

theorem test_quiet_rises :
    seen (fun t => (t.humidity.extract.state, t.humidity.extract.level, t.demand.live.map fun r => (r.origin, r.level)))
      (exec (.humiditySample .extract) (damp quiet 632)) = some (.rising, some 68, [(.humidity, 68)]) := by decide

/-- A RISING source at level 68, of baseline 55.2 %RH. -/
def rising : Source :=
  { Source.afterReset with
    state := .rising, baseline := some 552, arm := 20, last := some (632, 220), deviation := some 80, level := some 68 }

theorem test_rising_releases :
    seen (fun t => (t.humidity.extract.state, t.humidity.extract.inhibit))
        (exec (.humiditySample .extract) (damp rising 582)) = some (.quiet, 600)
      ∧ seen (fun t => t.humidity.extract.level) (exec (.humiditySample .extract) (damp rising 650)) =
        some (some 71) := by decide

theorem test_exhausted_source_is_rebased :
    seen (fun t => (t.humidity.extract.state, t.humidity.extract.baseline))
      (exec (.humiditySample .extract)
        (damp { rising with state := .exhausted, level := none, settle := 9, last := some (640, 220) } 650)) =
      some (.quiet, some 650) := by decide

theorem test_inhibit_runs_out :
    seen (fun t => t.humidity.extract.inhibit)
      (exec (.inhibitTimerExpiry .extract) (damp { quiet with inhibit := 1 } 552)) = some 0 := by decide

/-! ### The pressure channel -/

/-- A measurement of EXCH in flight for FROST, seven readings of 48.0 Pa taken. -/
def sampling : State :=
  { home with pressure := { ready.pressure with
      position := .exch, phase := .sample ⟨.frost, .exch, none, 7, 3360, false⟩, frost := some ⟨.exch, none, true⟩
      history := [.frost] } }

theorem test_measure :
    answer (exec (.measure 0) home) = some (.ok, [2]) ∧ answer (exec (.measure 3) ready) = some (.wrongMode, [])
      ∧ answer (exec (.measure 3) sampling) = some (.ok, [1]) ∧ answer (exec (.measure 4) home) = some (.badValue, []) := by
  decide

theorem test_grant_drives_the_selector :
    seen (fun t => (t.pressure.position, t.pressure.arrival, t.pressure.phase, t.vsel)) (exec (.measure 3) home) =
      some (.exch, 40000, .select ⟨.link, .exch, none, 0, 0, false⟩, (true, true)) := by decide

theorem test_settle_end :
    seen (fun t => t.pressure.phase)
      (exec .settleEnd { home with pressure := { ready.pressure with
        phase := .select ⟨.link, .exch, none, 0, 0, false⟩ } }) = some (.sample ⟨.link, .exch, none, 0, 0, false⟩) := by
  decide

theorem test_eighth_reading_completes :
    seen (fun t => (t.pressure.exchEntry, t.pressure.phase, t.frost.baseline.sum)) (exec (.reading 480) sampling) =
      some (some ⟨⟨480, false, .element .valid 210 true (some 1741)⟩, .frost, 40⟩, .free, 1741) := by decide

theorem test_reading_over_range :
    seen (fun t => t.pressure.exchEntry.map (·.result))
      (exec (.reading 5000) sampling) = some (some ⟨5000, true, .element .overRange 210 true none⟩) := by decide

/-- A measurement of FLOW in flight for TRIM, seven readings of 20.0 Pa taken. -/
def trimming : State :=
  { home with pressure := { ready.pressure with
      phase := .sample ⟨.trim, .flow, none, 7, 1400, false⟩, trim := some ⟨.flow, none, true⟩, trimTimer := none
      history := [.trim] } }

theorem test_flow_result_moves_the_trim :
    seen (fun t => (t.drive.trim, t.drive.sup.requested, t.pressure.trimTimer, t.pressure.fresh))
      (exec (.reading 200) trimming) = some (1032, 452, some 60000, false) := by decide

/-- A FLOW entry has no Pn: the code for absent; and a single grant stands in the newer bits. -/
theorem test_read_flow_tap_and_grant_history :
    answer (exec (.readTap 0) { home with pressure :=
        { ready.pressure with flowEntry := some ⟨⟨480, false, .orifice 291⟩, .trim, 40⟩ } }) =
      some (.ok, [0, 32, 0xE0, 1, 0x23, 1, 0xFF, 0xFF, 0, 0, 0, 0])
      ∧ (answer (exec .readMeasure { home with pressure := { ready.pressure with history := [.link] } })).map
        (fun a => a.2.getLast?) = some (some 28) := by decide

theorem test_cancel_measure :
    seen (fun t => (t.pressure.record, t.notices.has .measure)) (exec .cancelMeasure { home with pressure :=
      { ready.pressure with link := some ⟨.exch, none, false⟩, record := ⟨.waiting, some .exch, none, none⟩ } }) =
      some (⟨.aborted, some .exch, some .cancelled, none⟩, true) := by decide

theorem test_request_timers :
    seen (fun t => t.pressure.phase.flight.map (·.requester)) (exec .trimTimerExpiry home) = some (some .trim)
      ∧ seen (fun t => t.pressure.phase.flight.map (·.requester)) (exec .frostTimerExpiry home) = some (some .frost)
      ∧ seen (fun t => t.pressure.phase.flight.map fun f => (f.requester, f.tap)) (exec .filterTimerExpiry home) =
        some (some (.filter, .supFilter)) := by decide

/-! ### The frost guard -/

/-- A stage and its counts, with the given exhaust and outdoor temperatures. -/
def frosty (g : Frost) (eha oa : Int) : State :=
  { home with
    frost := g
    sensing := { ready.sensing with oa := ⟨.valid, some oa, 0, some oa⟩, eha := ⟨.valid, some eha, 0, some eha⟩ } }

/-- The guard in LIMIT, and in a CYCLE whose gate has measured. -/
def limiting : Frost :=
  { ready.frost with stage := .limit, reason := .margin, margin := some 1, reduction := 18, priorReduction := 18 }

def cycling : Frost :=
  { ready.frost with
    stage := .cycle, reason := .ice, margin := some 12, counter := 1800, gateResult := some (.ratio 110), failed := 3 }

theorem test_frost_stages :
    seen (fun t => (t.frost.stage, t.notices.has .frost)) (exec .frostEvaluation (frosty ready.frost 31 0)) =
        some (.clear, false)
      ∧ seen (fun t => (t.frost.stage, t.notices.has .frost)) (exec .frostEvaluation (frosty ready.frost 30 0)) =
        some (.watch, true)
      ∧ seen (fun t => (t.frost.stage, t.frost.reduction))
        (exec .frostEvaluation (frosty { ready.frost with stage := .watch } (-3) 0)) = some (.limit, 26)
      ∧ seen (fun t => (t.frost.stage, t.frost.reason, t.drive.sup.commanded))
        (exec .frostEvaluation (frosty limiting 5 (-250))) = some (.stop, .cold, 0) := by decide

/-- The count reads the orders after the previous evaluation, not those of now. -/
theorem test_saturation_reads_the_prior_orders :
    seen (fun t => t.frost.saturation) (exec .frostEvaluation (frosty { limiting with priorReduction := 50 } 0 0)) = some 1
      ∧ seen (fun t => t.frost.saturation) (exec .frostEvaluation (frosty { limiting with reduction := 50 } 0 0)) =
        some 0 := by decide

theorem test_frost_fallback :
    seen (fun t => (t.frost.stage, t.frost.reason, t.frost.fallback, t.frost.reduction))
      (exec .frostEvaluation { home with sensing := { ready.sensing with oa := ⟨.valid, some (-50), 0, some (-50)⟩ } }) =
      some (.limit, .outdoor, true, 25) := by decide

theorem test_wraps :
    seen (fun t => (t.frost.stage, t.frost.reason, t.frost.failed)) (exec .cycleWrap (frosty cycling 12 0)) =
        some (.limit, .thawed, 0)
      ∧ seen (fun t => (t.frost.stage, t.frost.counter, t.frost.failed))
        (exec .cycleWrap (frosty { cycling with margin := some 9 } 9 0)) = some (.cycle, 1, 0)
      ∧ seen (fun t => (t.frost.stage, t.frost.reason, t.frost.failed))
        (exec .cycleWrap (frosty { cycling with gateResult := some (.ratio 116) } 9 0)) = some (.stop, .iced, 4)
      ∧ seen (fun t => (t.frost.counter, t.frost.failed))
        (exec .cycleWrap (frosty { cycling with gateResult := some .overRange, failed := 1 } 9 0)) = some (1, 2) := by decide

theorem test_window_edge :
    seen (fun t => (t.frost.counter, t.frost.windows, t.resolver.view.a))
      (exec .windowEdge (frosty { cycling with counter := 480, windows := ⟨true, true, false⟩ } 9 0)) =
      some (481, ⟨true, false, false⟩, 60) := by decide

theorem test_relearn_clears_the_gate_result :
    seen (fun t => t.frost.gateResult) (exec .relearnExchanger { home with frost := cycling }) = some none := by decide

theorem test_relearn_exchanger :
    seen (fun t => (t.frost.baseline, t.pressure.frostTimer, t.store.queue))
      (exec .relearnExchanger { home with frost := { ready.frost with baseline := ⟨8, 318, some 40⟩ }
                                          pressure := { ready.pressure with frostTimer := none } }) =
      some (⟨0, 0, none⟩, some 900000, [.exchangerBaseline]) := by decide

/-- Section 6.12's shower in a frost: a HUMIDITY record of 78, LIMIT with a reduction of 18. -/
theorem test_shower_in_frost :
    resolve { home with
      demand := { table with live := [{ dampRecord with level := 78, held := false }] }
      frost := limiting } = ⟨78, .boost, 0x0103, 312, 328, 60, 256, 316, 0, 0b1010000⟩ := by decide

/-! ### The filter table -/

theorem test_fit_filter :
    (answer (exec (.fitFilter 0 1 0 5) ready)).map (fun a => (a.1, a.2.take 9)) =
        some (.clamped, [0x2A, 0, 0, 0, 0, 0x1C, 0x11, 10, 0])
      ∧ answer (exec (.fitFilter 0 1 0 0) home) = some (.slotOccupied, [])
      ∧ answer (exec (.fitFilter 2 1 0 0) home) = some (.badValue, [])
      ∧ seen (fun t => (t.filters.extract.map fun r => (r.state, r.interval), t.notices.has .filter, t.store.queue))
        (exec (.fitFilter 1 2 9000 0) ready) = some (some (.learning, 8760), true, [.filterRecords]) := by decide

theorem test_retire_filter :
    seen (fun t => (t.filters.supply, t.resolver.view.d)) (exec (.retireFilter 0) home) = some (none, 20)
      ∧ answer (exec (.retireFilter 1) ready) = some (.slotEmpty, []) := by decide

theorem test_read_filter_empty :
    answer (exec (.readFilter 1) ready) = some (.ok, 1 :: List.replicate 31 0) := by decide

theorem test_volume_addition :
    seen (fun t => (t.filters.supply.map fun r => (r.volume, r.litres), t.filters.extract.map fun r => (r.volume, r.litres)))
      (exec .volumeAddition home) = some (some (1, 200), some (1, 260)) := by decide

/-- R179: with both fans stopped nothing is added, though the FLOW entry is fresh by R144. -/
theorem test_stopped_fans_add_no_volume :
    seen (fun t => t.filters.supply.map fun r => (r.volume, r.litres))
      (exec .volumeAddition { home with
        drive := { ready.drive with steady := true }
        pressure :=
          { ready.pressure with flowEntry := some ⟨⟨480, false, .orifice 291⟩, .link, 40⟩, fresh := true } }) =
      some (some (0, 0)) := by decide

theorem test_hours_make_a_filter_due :
    seen (fun t => (t.hours, t.filters.supply.map fun r => (r.state, r.causes), t.notices.has .filter))
        (exec .operatingHoursAdvance { home with hours := 4379 }) = some (4380, some (.due, 0b0100), true)
      ∧ seen (fun t => t.hours) (exec .operatingHoursAdvance { home with hours := 4294967295 }) = some 4294967295 := by
  decide

/-! ### Steps -/

theorem test_step_takes_the_front :
    seen (fun t => (t.pending, t.link.response.status)) (step { ready with pending := [.setMode 0, .readFrost] }) =
      some ([.readFrost], .badValue) := by decide

theorem test_idle_millisecond :
    seen (fun t => (t.clock, t.pressure.trimTimer)) (step { home with clock := ⟨40999, 40⟩ }) =
      some (⟨41000, 41⟩, some 59999) := by decide

theorem test_loading_ends_after_20_ms :
    seen (fun t => t.pending) (step { State.reset with clock := ⟨20, 0⟩ }) = some [.loadingEnd] := by decide

theorem test_words_spell_nothing : (State.withFetchWord ready 8 0x30).pending = [] := by decide

/-! ### Witnesses: for each statement with hypotheses, states and operands that meet them, clause by clause -/

theorem witness_StepRunsTheFrontCommand :
    ∃ (c : Instr) (rest : List Instr) (s : State), s.pending = c :: rest :=
  ⟨.readFrost, [.reset], { ready with pending := [.readFrost, .reset] }, rfl⟩

theorem witness_AnEmptyQueueLetsTimePass :
    (dark.pending = [] ∧ dark.running = false)
      ∧ (∃ s : State, s.pending = [] ∧ s.running = true ∧ s.due ≠ [])
      ∧ (home.pending = [] ∧ home.running = true ∧ home.due = [] ∧ home.bus.exchange = .idle)
      ∧ ∀ x ∈ [Exchange.sending 0 [] 3, .void [] 3, .window 0 14 false, .window 0 14 true],
        State.due { home with bus := { home.bus with exchange := x } } = [] := by
  refine ⟨by decide, ⟨{ State.reset with clock := ⟨20, 0⟩ }, by decide, by decide, by decide⟩, by decide, by decide⟩

theorem witness_ASilentPartIsLeftAsItIs :
    dark.running = false ∧ held.running = false ∧ (∀ straps, Instr.loadingEnd ≠ .powerReset straps)
      ∧ (∀ released, Instr.loadingEnd ≠ .pinReset released) ∧ Instr.loadingEnd ≠ .powerLoss
      ∧ State.reset.answering = false ∧ encodeWrite .readFrost = some [0x1C, 0] :=
  ⟨by decide, by decide, nofun, nofun, by decide, by decide, by decide⟩

theorem witness_WritesAreExecutedOrRefused :
    encodeWrite (.setMode 1) = some [0x22, 1, 1] ∧ ready.answering = true
      ∧ (32 < (33 : Byte).toNat ∨ (List.replicate 33 (0 : Byte)).length ≠ (33 : Byte).toNat)
      ∧ (32 < (1 : Byte).toNat ∨ ([] : List Byte).length ≠ (1 : Byte).toNat)
      ∧ ((32 : Byte).toNat ≤ 32 ∧ (List.replicate 32 (0 : Byte)).length = (32 : Byte).toNat ∧ fieldLength 0x06 = none)
      ∧ ((0 : Byte).toNat ≤ 32 ∧ ([] : List Byte).length = (0 : Byte).toNat ∧ fieldLength 0x05 = some 1
        ∧ (0 : Byte).toNat ≠ 1) := by decide

theorem witness_ReadsReturnTheBuffer :
    ready.acknowledges 0x4C = true ∧ ready.acknowledges 0x4D = false ∧ State.reset.acknowledges 0x4C = false
      ∧ ready.link.response.data.length ≤ 32
      ∧ (ready.respond .ok (List.replicate 32 0)).acknowledges 0x4C = true
      ∧ (ready.respond .ok (List.replicate 32 0)).link.response.data.length ≤ 32 := by decide

theorem witness_ReadsAnswerTheirReports :
    asked.answering = true ∧ (6 : Byte).toNat = (5 : StationId).val + 1
      ∧ ((0 : Byte).toNat = 0 ∧ (1 : Byte).toNat = 1 ∧ (2 : Byte).toNat = 2 ∧ (3 : Byte).toNat = 3)
      ∧ (1 ≤ (49 : Byte).toNat ∧ (49 : Byte).toNat ≤ 49)
      ∧ asked.demand.find 0x0103 = some dampRecord ∧ asked.demand.find 0x0203 = none
      ∧ ((0 : Byte).toNat = 0 ∧ 6 < (7 : Byte).toNat ∧ 4 ≤ (4 : Byte).toNat ∧ 2 ≤ (2 : Byte).toNat
        ∧ 49 < (50 : Byte).toNat) := by decide

/-- Clause by clause: no parameter; an equal value; a parameter of the resolver; STEADY_TIME; STATIONS_ENABLED; another. -/
theorem witness_SetParameter :
    home.answering = true ∧ Param.ofIdent 0 = none ∧ Param.ofIdent 50 = none
      ∧ (Param.ofIdent 1 = some .nominalFlow ∧ home.params.get .nominalFlow = home.params.accepted .nominalFlow 400)
      ∧ (home.params.get .nominalFlow ≠ home.params.accepted .nominalFlow 2001
        ∧ Param.nominalFlow.resolverReads = true)
      ∧ (Param.ofIdent 9 = some .steadyTime ∧ home.params.get .steadyTime ≠ home.params.accepted .steadyTime 120)
      ∧ (Param.ofIdent 48 = some .stationsEnabled
        ∧ home.params.get .stationsEnabled ≠ home.params.accepted .stationsEnabled 63
        ∧ home.bus.stations[(0 : StationId)].state = .unconfigured
        ∧ missing.params.get .stationsEnabled ≠ missing.params.accepted .stationsEnabled 62
        ∧ missing.bus.stations[(0 : StationId)].state ≠ .unconfigured ∧ missing.bus.exchange = .window 0 5 false
        ∧ polling.bus.exchange = .sending 0 [] 4 ∧ home.bus.exchange = .idle
        ∧ missing.bus.stations[(0 : StationId)].temperature.status ≠ .invalid)
      ∧ (Param.ofIdent 49 = some .noticeMask ∧ home.params.get .noticeMask ≠ home.params.accepted .noticeMask 511
        ∧ Param.noticeMask.resolverReads = false ∧ Param.noticeMask ≠ .steadyTime
        ∧ Param.noticeMask ≠ .stationsEnabled) := by decide

theorem witness_AcceptedParametersKeepTheirRanges :
    Params.default.Ok ∧ Param.humRise.isSet = false ∧ Param.humRise.row.lo ≤ (40 : Word).toInt
      ∧ (40 : Word).toInt ≤ Param.humRise.row.hi ∧ Params.default.paired .humRise (40 : Word).toInt = (40 : Word).toInt := by
  decide

theorem witness_NoticesAreReadAndCleared :
    ready.answering = true ∧ ready.clock.seconds ≤ 4294967295 ∧ ready.hours ≤ 4294967295
      ∧ (512 ≤ (512 : Half).toNat ∧ (511 : Half).toNat < 512) := by decide

/-- A write of the hours is in progress; a block waits; nothing is written and nothing waits. -/
def storing : State := { ready with store := { Store.blank with writing := some (.hours 7), writeElapsed := 250 } }

/-- A clearing with blocks still to begin, and with a write in progress. -/
def clearing (rest : List Block) : State := { asleep with store := { Store.blank with clearing := some rest } }

def writingOver (s : State) : State := { s with store := { s.store with writing := some (.hours 7) } }

def queued : State := { ready with store := { Store.blank with queue := [.hours, .parameters] } }

theorem witness_TheStoreLoadsAndWritesItsBlocks :
    (storing.running = true ∧ storing.store.writing = some (.hours 7)
        ∧ storing.store.clearing = none ∧ storing.store.writing.isSome = true)
      ∧ (queued.running = true ∧ queued.store.writing = none ∧ queued.store.clearing = none
        ∧ queued.store.queue = [.hours, .parameters])
      ∧ (ready.running = true ∧ ready.store.writing = none ∧ ready.store.queue = [])
      ∧ (held.life = .held .pin ∧ dark.life = .off false)
      ∧ ((clearing [.hours]).running = true ∧ (clearing [.hours]).store.clearing = some [.hours]
        ∧ [Block.hours].length < 6
        ∧ (writingOver (clearing [.hours])).store.writing = some (.hours 7)) := by decide

theorem witness_ResetsRestartEveryBlock :
    home.life = .running ∧ dark.life = .off false ∧ held.life = .held .pin
      ∧ ({ dark with life := .off true } : State).life = .off true ∧ home.answering = true := by decide

/-- R180: a record fitted at 4000 hours, with the hours block failing and with 4000 hours on record. -/
theorem witness_ResetsRestartEveryBlock_corrects :
    (({ cleanFilter with fittedAt := 4000 } : FilterRecord).fittedAt = 4000 ∧ (0 : Nat) < 4000 ∧ ¬4000 < 4000)
      ∧ seen (fun t => (t.filters.supply.map (·.fittedAt), t.store.queue, t.notices.defaulted.getLsbD 4))
        (exec (.powerReset 0) { home with store :=
          { home.store with filters := some ⟨some { cleanFilter with fittedAt := 4000 }, none⟩, hours := none } }) =
        some (some 0, [.filterRecords], true)
      ∧ seen (fun t => (t.filters.supply.map (·.fittedAt), t.store.queue, t.notices.defaulted.getLsbD 4))
        (exec (.powerReset 0) { home with store :=
          { home.store with filters := some ⟨some { cleanFilter with fittedAt := 4000 }, none⟩, hours := some 4000 } }) =
        some (some 4000, [], false) := by decide

theorem witness_FactoryClearWritesEveryDefault :
    (home.answering = true ∧ home.resolver.mode ≠ .standby) ∧ (asleep.answering = true ∧ asleep.resolver.mode = .standby)
      ∧ ((clearing [.hours, .storedMode]).running = true
        ∧ (clearing [.hours, .storedMode]).store.clearing = some [.hours, .storedMode]
        ∧ (clearing [.hours, .storedMode]).store.writing = none)
      ∧ ((writingOver (clearing Block.all)).store.clearing = some Block.all
        ∧ (writingOver (clearing Block.all)).store.writing = some (.hours 7))
      ∧ ((clearing []).running = true ∧ (clearing []).store.clearing.isSome = true) := by decide

theorem witness_HandlesNameTheirRecords : table.Ok := by decide

theorem witness_AFreeEntryExistsForEveryFiling :
    table.Ok ∧ table.linkCount < 16 ∧ Origin.station 1 ≠ .link ∧ table.byOrigin (.station 1) .boost = none := by decide

/-- The demand table with its counter at its largest value. -/
def worn : State :=
  { ready with demand := { table with
      live := [{ linkRecord with seq := 4294967295 }], freeList := 3 :: 2 :: 1 :: (List.finRange 24).drop 4
      counter := 4294967295 } }

theorem witness_FileDemandMakesANewRecord :
    (asked.answering = true ∧ [Kind.hold, .boost, .setback][(1 : Byte).toNat]? = some .boost
        ∧ (∀ r ∈ asked.demand.live, ¬(r.origin = .link ∧ r.kind = .boost ∧ r.tag = some 5))
        ∧ asked.demand.linkCount < 16 ∧ asked.demand.freeList = 4 :: (List.finRange 24).drop 5
        ∧ asked.demand.counter < 4294967295)
      ∧ (worn.answering = true ∧ [Kind.hold, .boost, .setback][(2 : Byte).toNat]? = some .setback
        ∧ (∀ r ∈ worn.demand.live, ¬(r.origin = .link ∧ r.kind = .setback ∧ r.tag = some 4))
        ∧ worn.demand.linkCount < 16 ∧ worn.demand.freeList = 3 :: 2 :: 1 :: (List.finRange 24).drop 4
        ∧ 4294967295 ≤ worn.demand.counter) := by decide

theorem witness_FileDemandAmendsAMatchingRecord :
    asked.answering = true ∧ [Kind.hold, .boost, .setback][(1 : Byte).toNat]? = some .boost ∧ asked.demand.Ok
      ∧ asked.demand.live = [] ++ linkRecord :: [pressRecord, cookerRecord, dampRecord] ∧ linkRecord.origin = .link
      ∧ linkRecord.kind = .boost ∧ linkRecord.tag = some 4 := by decide

theorem witness_AmendDemandReplacesThePresentFields :
    asked.answering = true ∧ asked.demand.Ok
      ∧ asked.demand.live = [] ++ linkRecord :: [pressRecord, cookerRecord, dampRecord] ∧ linkRecord.origin = .link
      ∧ (3 : Byte).toNat < 4 := by decide

theorem witness_RetireDemandFreesTheEntry :
    asked.answering = true ∧ asked.demand.Ok
      ∧ asked.demand.live = [linkRecord] ++ pressRecord :: [cookerRecord, dampRecord]
      ∧ pressRecord.origin ≠ .cooker ∧ pressRecord.origin ≠ .humidity := by decide

theorem witness_DemandExpiryRetiresTheRecord :
    asked.running = true ∧ asked.demand.Ok
      ∧ asked.demand.live = [] ++ linkRecord :: [pressRecord, cookerRecord, dampRecord]
      ∧ linkRecord.remaining.isSome = true ∧ asked.demand.find 0x0102 = some cookerRecord
      ∧ cookerRecord.remaining = none := by decide

/-- Sixteen LINK records, tags 0 to 15. -/
def full : State :=
  { ready with
    demand :=
      { live := (List.range 16).map fun n =>
          ⟨⟨n % 24, Nat.mod_lt n (by decide)⟩, 1, .link, .boost, 50, some (BitVec.ofNat 8 n), .indefinite, none, n + 1, 0, false⟩
        gens := Vector.ofFn fun e => if e.val < 16 then 1 else 0
        freeList := (List.finRange 24).drop 16
        counter := 16 } }

theorem witness_RefusedDemandCommandsChangeNothing :
    asked.answering = true ∧ 3 ≤ (3 : Byte).toNat
      ∧ (full.answering = true ∧ [Kind.hold, .boost, .setback][(1 : Byte).toNat]? = some .boost
        ∧ (∀ r ∈ full.demand.live, ¬(r.origin = .link ∧ r.kind = .boost ∧ r.tag = some 16))
        ∧ 16 ≤ full.demand.linkCount)
      ∧ 4 ≤ (4 : Byte).toNat ∧ ((3 : Byte).toNat < 4 ∧ asked.demand.find 0x0200 = none)
      ∧ (asked.demand.find 0x0101 = some pressRecord ∧ pressRecord.origin ≠ .link)
      ∧ asked.demand.find 0x0102 = some cookerRecord ∧ cookerRecord.origin = .cooker
      ∧ asked.demand.find 0x0103 = some dampRecord ∧ dampRecord.origin = .humidity := by decide

/-- The house, told to stand by. -/
def told : State := { home with pending := [.setMode 2] }

theorem witness_EveryStepKeepsTheDemandTable :
    told.demand.Ok ∧ told.SettingsOk ∧ (∀ i : SourceId, (told.humidity.source i).Ok) ∧ ∃ t, step told = .next t :=
  ⟨by decide, by decide, fun | .extract => by decide | .station n => by revert n; decide, _, rfl⟩

theorem witness_SamplesAreClassifiedMeans :
    (AnalogChannel.eha ∈ [AnalogChannel.oa, .sa, .ea, .eha] ∧ (-451 : Int) < -450 ∧ 700 < (701 : Int)
        ∧ (-450 : Int) ≤ -450 ∧ (-450 : Int) ≤ -401 ∧ (601 : Int) ≤ 700)
      ∧ AnalogChannel.extractRh ∈ [AnalogChannel.outdoorRh, .extractRh]
      ∧ 0 ≤ (Vector.replicate 8 (0 : Int)).toList.sum ∧ (Vector.replicate 8 (-1 : Int)).toList.sum < 0 := by decide

/-- Channels in each status. -/
def channels : State :=
  { ready with sensing := { ready.sensing with
      oa := ⟨.valid, some 12, 0, some 12⟩, sa := ⟨.held, some 200, 1, some 200⟩, ea := ⟨.invalid, none, 0, some 210⟩ } }

theorem witness_AnalogChannelsFollowTheirSamples :
    channels.running = true ∧ classify .oa (sampleMean (Vector.replicate 8 600)) = some 600
      ∧ classify .oa (sampleMean (Vector.replicate 8 701)) = none
      ∧ (channels.sensing.channel .oa).status = .valid ∧ (channels.sensing.channel .sa).status = .held
      ∧ (channels.sensing.channel .ea).status = .invalid ∧ (channels.sensing.channel .eha).status = .pending := by
  decide

/-- The cooker's contact read OPEN and CLOSED three samples long, without and with a record. -/
def closingCooker : State := { home with sensing := { ready.sensing with cooker := ⟨false, 3⟩, night := ⟨true, 3⟩ } }

def openingCooker : State :=
  { asked with sensing := { ready.sensing with cooker := ⟨true, 3⟩, night := ⟨false, 3⟩ } }

/-- NIGHT about to be released, the extract source DEFERRED with the given last deviation. -/
def waking (e : Int) : State :=
  { damp { quiet with state := .deferred, deviation := some e } 632 with
    sensing := { ready.sensing with night := ⟨true, 3⟩ } }

theorem witness_ContactSamplesActOnTheirContact_release :
    (waking 80).running = true ∧ ((waking 80).sensing.contact .night).closed = true
      ∧ 3 ≤ ((waking 80).sensing.contact .night).count ∧ (waking 80).demand.Ok
      ∧ ((waking 80).humidity.source .extract).state = .deferred
      ∧ ((waking 80).humidity.source .extract).last = some (552, 220)
      ∧ ((waking 80).humidity.source .extract).deviation = some 80
      ∧ (waking 80).params.get .humRise ≤ 80 ∧ ((waking 79).humidity.source .extract).deviation = some 79
      ∧ (79 : Int) < (waking 79).params.get .humRise
      ∧ ((waking 80).humidity.source (.station 0)).state ≠ .deferred := by decide

theorem witness_ContactSamplesActOnTheirContact :
    closingCooker.running = true ∧ (∃ t, exec (.contactLevelChange .cooker [true]) closingCooker = .next t)
      ∧ (closingCooker.sensing.contact .cooker).closed = !true
      ∧ ((ready.sensing.contact .cooker).closed = false ∧ (ready.sensing.contact .cooker).count < 3)
      ∧ ((closingCooker.sensing.contact .cooker).closed = false ∧ 3 ≤ (closingCooker.sensing.contact .cooker).count)
      ∧ ((closingCooker.sensing.contact .night).closed = true ∧ 3 ≤ (closingCooker.sensing.contact .night).count)
      ∧ ((openingCooker.sensing.contact .night).closed = false ∧ 3 ≤ (openingCooker.sensing.contact .night).count)
      ∧ (closingCooker.demand.byOrigin .cooker .boost = none
        ∧ closingCooker.demand.freeList = 0 :: (List.finRange 24).drop 1)
      ∧ (openingCooker.demand.Ok
        ∧ openingCooker.demand.live = [linkRecord, pressRecord] ++ cookerRecord :: [dampRecord]
        ∧ cookerRecord.origin = .cooker ∧ (openingCooker.sensing.contact .cooker).closed = true
        ∧ 3 ≤ (openingCooker.sensing.contact .cooker).count ∧ openingCooker.params.nat .cookerRunon ≠ 0)
      ∧ ({ openingCooker with params := Params.default.set .cookerRunon 0 } : State).params.nat .cookerRunon = 0 :=
  ⟨by decide, ⟨_, rfl⟩, by decide, by decide, by decide, by decide, by decide, by decide, by decide, by decide⟩

/-- No sample yet, an equal one and two that differ; and a pulse with noise of one sample in each of its levels. -/
theorem witness_TachWindowsCountPulses :
    State.reset.sensing.tks.accepted = none
      ∧ ((⟨some false, true, 0, 0⟩ : TachInput).accepted = some false ∧ (⟨some false, true, 0, 0⟩ : TachInput).differs = true)
      ∧ ∀ c ∈ [([false, true], [true, false])],
        (∀ a b : List Bool, c.1 ≠ a ++ [false, false] ++ b) ∧ ∀ a b : List Bool, c.2 ≠ a ++ [true, true] ++ b := by
  refine ⟨by decide, by decide, ?_⟩
  intro c hc
  rw [List.mem_singleton.1 hc]
  constructor <;> intro a b h <;> have n := congrArg List.length h <;> simp at n <;>
    obtain ⟨ha, hb⟩ : a = [] ∧ b = [] := by constructor <;> (apply List.eq_nil_of_length_eq_zero; omega)
  all_goals (subst ha hb; simp at h)

theorem witness_MoistureArithmetic :
    19 < 20 ∧ 20 ≤ 20 ∧ (-260 : Int) ≤ -260 ∧ (600 : Int) ≤ 600 ∧ (-400 : Int) ≤ -400 ∧ (500 : Int) ≤ 501
      ∧ (0 : Int) ≤ 0 := by decide

theorem witness_EveryStepKeepsTheChannels :
    (∀ c : AnalogChannel, (told.sensing.channel c).Ok) ∧ ∃ t, step told = .next t :=
  ⟨by intro c; cases c <;> decide, _, rfl⟩

theorem witness_CalibrationLookups :
    CalTable.Ok .default ∧ (0 < 80 ∧ 80 ≤ CalTable.default[0].flow) ∧ CalTable.default[5].flow ≤ 480
      ∧ (CalTable.default[0].flow < 240 ∧ 240 < CalTable.default[5].flow ∧ CalTable.default[2].flow ≤ 240
        ∧ 240 < CalTable.default[3].flow)
      ∧ (0 < 199 ∧ 199 < CalTable.default[0].duty) ∧ CalTable.default[5].duty ≤ 1000
      ∧ (CalTable.default[4].duty ≤ 999 ∧ 999 < CalTable.default[5].duty) := by decide

/-- The supply fan turning too slowly, its stall count and its attempts as given. -/
def slow (stall attempts : Nat) : State :=
  { home with drive := { home.drive with sup := { fanAt 440 with stall := stall, attempts := attempts } } }

theorem witness_TachWindowsJudgeTheFan :
    (home.running = true ∧ (ready.drive.fan .sup).state ≠ .running)
      ∧ ((slow 13 0).running = true ∧ ((slow 13 0).drive.fan .sup).state = .running
        ∧ (slow 13 0).firstDuty .sup ≤ ((slow 13 0).drive.fan .sup).commanded
        ∧ (((slow 13 0).sensing.tach .sup).close []).speed < 150 ∧ ((slow 13 0).drive.fan .sup).stall + 1 < 15)
      ∧ (15 ≤ ((slow 14 2).drive.fan .sup).stall + 1 ∧ ((slow 14 2).drive.fan .sup).attempts < 3)
      ∧ (15 ≤ ((slow 14 3).drive.fan .sup).stall + 1 ∧ 3 ≤ ((slow 14 3).drive.fan .sup).attempts) := by decide

theorem witness_RestsAndLockoutsEnd :
    (resting.running = true ∧ (resting.drive.fan .sup).state = .faultRest) ∧ (home.drive.fan .sup).state ≠ .faultRest
      ∧ (home.drive.fan .sup).state = .running ∧ (resting.drive.fan .sup).state ≠ .running
      ∧ (locked.answering = true ∧ 2 ≤ (2 : Byte).toNat ∧ [FanId.sup, .ext][(0 : Byte).toNat]? = some .sup
        ∧ (locked.drive.fan .sup).state = .locked)
      ∧ (home.drive.fan .sup).state ≠ .locked := by decide

/-- The supply fan ramping. -/
def ramping : State :=
  { home with drive := { home.drive with sup := { fanAt 440 with commanded := 439, step := some 1 }, steady := false } }

theorem witness_SlewStepsMoveTheDutyByOne :
    ramping.running = true ∧ (ramping.drive.fan .sup).state = .running ∧ (ramping.drive.fan .sup).step.isSome = true
      ∧ (ramping.drive.fan .sup).commanded ≠ (ramping.drive.fan .sup).requested
      ∧ FanId.ext ≠ .sup ∧ 0 < ramping.params.nat .steadyTime ∧ (home.drive.fan .sup).step = none
      ∧ (resting.drive.fan .sup).state = .faultRest ∧ ready.resolver.mode = .startup ∧ asleep.resolver.mode = .standby
      ∧ ((home.drive.fan .sup).state = .running ∧ home.resolver.mode = .run ∧ home.frost.stage = .clear
        ∧ (home.drive.fan .sup).source = .auto)
      ∧ ({ fanAt 440 with source := .direct 440 } : Fan).source = .direct 440
      ∧ ((⟨0, true⟩ : DutyRequest).drop = true ∧ (⟨300, false⟩ : DutyRequest).drop = false ∧ (fanAt 440).commanded ≠ 0
        ∧ Fan.afterReset.commanded = 0) := by decide

theorem witness_SteadinessAndPreheaterEvents :
    home.running = true ∧ home.drive.sup.commanded = home.drive.sup.requested
      ∧ home.drive.ext.commanded = home.drive.ext.requested ∧ home.drive.sup.state = .running ∧ 0 < home.drive.sup.commanded
      ∧ home.drive.ext.state = .running ∧ ramping.drive.sup.commanded ≠ ramping.drive.sup.requested
      ∧ ready.drive.sup.state ≠ .running := by decide

theorem witness_SetSourceMapsAnOutput :
    installing.answering = true ∧ (3 ≤ (3 : Byte).toNat ∧ 2 ≤ (2 : Byte).toNat)
      ∧ ((2 : Byte).toNat < 3 ∧ (1 : Byte).toNat < 2 ∧ home.answering = true ∧ home.resolver.mode ≠ .commission)
      ∧ (installing.resolver.mode = .commission ∧ [FanId.sup, .ext][(1 : Byte).toNat]? = some .ext
        ∧ (2 : Byte).toNat = 2) := by decide

theorem witness_WriteCalReplacesAPoint :
    home.answering = true ∧ (2 ≤ (2 : Byte).toNat ∧ 6 ≤ (6 : Byte).toNat)
      ∧ ([FanId.sup, .ext][(0 : Byte).toNat]? = some .sup ∧ (5 : Byte).toNat = (5 : Fin 6).val)
      ∧ (0 < (1000 : Half).toNat ∧ (1000 : Half).toNat ≤ 1000 ∧ 0 < (500 : Half).toNat
        ∧ (∀ j : Fin 6, j.val + 1 = (5 : Fin 6).val → (home.drive.cals.table .sup)[j].duty < (1000 : Half).toNat
          ∧ (home.drive.cals.table .sup)[j].flow < (500 : Half).toNat)
        ∧ ∀ j : Fin 6, (5 : Fin 6).val + 1 = j.val → (1000 : Half).toNat < (home.drive.cals.table .sup)[j].duty
          ∧ (500 : Half).toNat < (home.drive.cals.table .sup)[j].flow)
      ∧ ¬(1001 : Half).toNat ≤ 1000 := by decide

theorem witness_EveryStepKeepsTheSettingsAndTheFanDrive :
    told.SettingsOk ∧ told.store.QueueOk ∧ told.drive.TrimOk ∧ told.drive.sup.Ok ∧ told.drive.ext.Ok ∧ told.SteadyOk
      ∧ told.PreheatOk ∧ ∃ t, step told = .next t :=
  ⟨by decide, by decide, by decide, by decide, by decide, by decide, by decide, _, rfl⟩

/-! ### Witnesses: the bus and the humidity rule -/

/-- The press report of station 1 against its counts: equal, a short press, and a long press. -/
def pressed (short long : Byte) (t : DemandTable) : State :=
  { missing with
    demand := t
    bus :=
      { stations := ready.bus.stations.set 0
          { Station.fresh .online with kind := some .wet, misses := 2, presses := some (short, long) }
        exchange := .window 0 29 true } }

/-- What the report of station 1 carries. -/
def report1Read : Report := ⟨.wet, false, some 215, some 684, 12, 3⟩

theorem witness_PollsGoOutInTheirSlots :
    seeking.running = true
      ∧ (((∀ m : StationId, ¬(seeking.bus.stations[m].marked = true ∧ seeking.bus.stations[m].state = .online))
          ∧ seeking.bus.stations[(0 : StationId)].marked = true ∧ seeking.bus.stations[(0 : StationId)].state = .seeking)
        ∧ ∀ m : StationId, ¬m < 0)
      ∧ (∀ n : StationId, ready.bus.stations[n].marked = false)
      ∧ (({ missing.bus.stations[(0 : StationId)] with marked := true } : Station).marked = true
        ∧ missing.bus.stations[(0 : StationId)].state = .online)
      ∧ polling.bus.exchange = .sending 0 [] 4 ∧ home.bus.exchange = .idle ∧ awaiting.bus.exchange = .window 0 5 false
      ∧ (15 ≤ 15 ∧ 15 < 16 ∧ ({ awaiting with bus := { awaiting.bus with exchange := .window 0 15 false } } : State).running = true)
      ∧ home.demand.Ok := by decide

theorem witness_GoodRepliesAreTakenWhole :
    decodeReport (BitVec.ofNat 8 ((0 : StationId).val + 1)) report1 = some report1Read
      ∧ ((pressed 12 3 .afterReset).running = true ∧ (pressed 12 3 .afterReset).bus.exchange = .window 0 29 true
        ∧ (pressed 12 3 .afterReset).bus.stations[(0 : StationId)].state ≠ .unconfigured
        ∧ (pressed 12 3 .afterReset).bus.stations[(0 : StationId)].presses = some (report1Read.short, report1Read.long))
      ∧ ((11 : Byte) ≠ report1Read.short ∧ (2 : Byte) ≠ report1Read.long
        ∧ (pressed 11 2 .afterReset).bus.stations[(0 : StationId)].presses = some (11, 2)
        ∧ (pressed 11 2 .afterReset).demand.byOrigin (.station 0) .boost = none)
      ∧ ((pressed 11 3 table).bus.stations[(0 : StationId)].presses = some (11, 3) ∧ table.Ok
        ∧ (pressed 11 3 table).demand.live = [linkRecord] ++ pressRecord :: [cookerRecord, dampRecord]
        ∧ pressRecord.origin = .station 0) := by decide

theorem witness_MissesLoseAStation :
    (awaiting.running = true ∧ awaiting.bus.exchange = .window 0 5 false
        ∧ decodeReport (BitVec.ofNat 8 ((0 : StationId).val + 1)) [] = none
        ∧ awaiting.bus.stations[(0 : StationId)].state ≠ .online)
      ∧ (missing.running = true ∧ missing.bus.exchange = .window 0 5 false
        ∧ missing.bus.stations[(0 : StationId)].state = .online
        ∧ 3 ≤ min 255 (missing.bus.stations[(0 : StationId)].misses + 1))
      ∧ (30 < 31 ∧ 15 < 16 ∧ decodeReport (BitVec.ofNat 8 ((0 : StationId).val + 1)) report1 ≠ none)
      ∧ home.bus.exchange = .idle
      ∧ gone.bus.stations[(1 : StationId)].hold = 0 ∧ 0 < gone.bus.stations[(0 : StationId)].hold := by decide

/-- The two misses of station 1 with the third command waiting. -/
def lapsing : State := { missing with pending := [.replyTimeout] }

theorem witness_EveryStepKeepsTheStations :
    lapsing.bus.Ok ∧ ∃ t, step lapsing = .next t := 
  ⟨⟨by decide, show lapsing.bus.stations[(0 : StationId)].state ≠ .unconfigured by decide⟩, _, rfl⟩

/-- The extract source in each state, with the humidity of its next sample. -/
def disarmed : State := damp .afterReset 500

def deferred (h : Int) : State := damp { quiet with state := .deferred, deviation := some 90 } h

def exhausted (settle : Nat) (h : Int) : State :=
  damp { quiet with state := .exhausted, settle := settle, last := some (640, 220) } h

/-- Clause by clause: no reading; DISARMED; QUIET at and below the rise, by night and by day; RISING at the release,
at its last sample and before it; EXHAUSTED; DEFERRED. -/
theorem witness_HumiditySamplesJudgeTheirSource :
    (home.running = true ∧ home.sourceReading .extract = none)
      ∧ (disarmed.running = true ∧ disarmed.sourceReading .extract = some (220, 500)
        ∧ (disarmed.humidity.source .extract).state = .disarmed)
      ∧ ((damp quiet 632).sourceReading .extract = some (220, 632)
        ∧ ((damp quiet 632).humidity.source .extract).state = .quiet
        ∧ ((damp quiet 632).humidity.source .extract).baseline = some 552
        ∧ (damp quiet 632).params.get .humRise ≤ 632 - 552
        ∧ ((damp quiet 632).humidity.source .extract).inhibit = 0 ∧ (damp quiet 632).sensing.night.closed = false
        ∧ ({ ready.sensing with night := ⟨true, 0⟩ } : Sensing).night.closed = true
        ∧ (damp quiet 632).params.get .quietNights = 1 ∧ (631 : Int) - 552 < (damp quiet 631).params.get .humRise)
      ∧ (((damp rising 582).humidity.source .extract).state = .rising
        ∧ (582 : Int) - 552 ≤ (damp rising 582).params.get .humRelease
        ∧ (damp rising 583).params.get .humRelease < 583 - 552
        ∧ 2 * (damp rising 583).params.nat .humMaxRun ≤ 239 + 1
        ∧ ((damp rising 583).humidity.source .extract).run + 1 < 2 * (damp rising 583).params.nat .humMaxRun)
      ∧ (((exhausted 9 640).humidity.source .extract).state = .exhausted
        ∧ ((exhausted 9 640).humidity.source .extract).last = some (640, 220)
        ∧ (exhausted 9 640).params.get .humRelease < 640 - 552
        ∧ (((640 : Int) - 640).natAbs : Int) ≤ (exhausted 9 640).params.get .humRelease
        ∧ 9 ≤ ((exhausted 9 640).humidity.source .extract).settle
        ∧ ((exhausted 8 640).humidity.source .extract).settle < 9
        ∧ (exhausted 9 671).params.get .humRelease < (((671 : Int) - 640).natAbs : Int))
      ∧ (((deferred 632).humidity.source .extract).state = .deferred
        ∧ (deferred 632).params.get .humRelease < 632 - 552 ∧ (deferred 632).params.get .quietNights ≠ 0
        ∧ ({ deferred 632 with params := Params.default.set .quietNights 0 } : State).params.get .quietNights = 0) := by
  decide

/-- A HUMIDITY record of a given level, ACTIVE, alone in the table. -/
def dampTable (level : Nat) : DemandTable :=
  { table with
    live := [{ dampRecord with level := level, held := false }]
    freeList := 0 :: 1 :: 2 :: (List.finRange 24).drop 4 }

/-- The sample with and without a HUMIDITY record, rising and not. -/
def sampled (x : Source) (h : Int) (t : DemandTable) : State := { damp x h with demand := t }

/-- The sources as they stand after the sample of EXTRACT. -/
def afterSample (s : State) : Humidity := s.humidity.setSource .extract (s.sampleSource .extract)

theorem forall_source {p : SourceId → Prop} (h : p .extract) (g : ∀ n, p (.station n)) : ∀ i, p i
  | .extract => h
  | .station n => g n

/-- Without a contributor, with no record and with one. -/
theorem witness_TheHumidityRecordFollowsTheContributors :
    (home.running = true ∧ home.demand.Ok) ∧ (∀ j, ((afterSample home).source j).state ≠ .rising)
      ∧ (∀ r ∈ home.demand.live, r.origin ≠ .humidity)
      ∧ (sampled rising 582 (dampTable 68)).demand.Ok
      ∧ (∀ j, ((afterSample (sampled rising 582 (dampTable 68))).source j).state ≠ .rising)
      ∧ (sampled rising 582 (dampTable 68)).demand.live = [] ++ { dampRecord with level := 68, held := false } :: [] :=
  ⟨by decide, forall_source (by decide) (by decide), by decide, by decide, forall_source (by decide) (by decide),
    by decide⟩

/-- A contributor that asks for 68 and one that asks for 71: no record, a record of that level, a record of another. -/
theorem witness_TheHumidityRecordFollowsTheContributors_asks :
    (∃ j, (((afterSample (sampled quiet 632 .afterReset)).source j).state = .rising
        ∧ ¬((afterSample (sampled quiet 632 .afterReset)).source j).noDrying = true)
        ∧ ((afterSample (sampled quiet 632 .afterReset)).source j).level.getD 0 = 68)
      ∧ (∀ j, ((afterSample (sampled quiet 632 .afterReset)).source j).state = .rising →
        ((afterSample (sampled quiet 632 .afterReset)).source j).level.getD 0 ≤ 68)
      ∧ (∀ r ∈ (sampled quiet 632 .afterReset).demand.live, r.origin ≠ .humidity)
      ∧ (∃ j, (((afterSample (sampled rising 650 (dampTable 68))).source j).state = .rising
        ∧ ¬((afterSample (sampled rising 650 (dampTable 68))).source j).noDrying = true)
        ∧ ((afterSample (sampled rising 650 (dampTable 68))).source j).level.getD 0 = 71)
      ∧ (∀ j, ((afterSample (sampled rising 650 (dampTable 68))).source j).state = .rising →
        ((afterSample (sampled rising 650 (dampTable 68))).source j).level.getD 0 ≤ 71)
      ∧ (sampled rising 650 (dampTable 68)).demand.live = [] ++ { dampRecord with level := 68, held := false } :: [] :=
  ⟨⟨.extract, by decide, by decide⟩, forall_source (by decide) (by decide), by decide, ⟨.extract, by decide, by decide⟩,
    forall_source (by decide) (by decide), by decide⟩

/-- A contributor whose ventilation would not dry: it alone asks, at 50. -/
def undrying : State :=
  { home with
    demand := { dampTable 50 with live := [{ dampRecord with level := 50 }] }
    humidity := { ready.humidity with
      stations := ready.humidity.stations.set 0 { rising with level := some 50, noDrying := true } } }

theorem witness_TheHumidityRecordFollowsTheContributors_held :
    (undrying.running = true ∧ undrying.demand.Ok)
      ∧ (∀ j, ((afterSample undrying).source j).state = .rising → ((afterSample undrying).source j).noDrying = true)
      ∧ (∃ j, ((afterSample undrying).source j).state = .rising ∧ ((afterSample undrying).source j).level.getD 0 = 50)
      ∧ (∀ j, ((afterSample undrying).source j).state = .rising → ((afterSample undrying).source j).level.getD 0 ≤ 50)
      ∧ undrying.demand.live = [] ++ { dampRecord with level := 50 } :: [] :=
  ⟨by decide, forall_source (by decide) (by decide), ⟨.station 0, by decide, by decide⟩,
    forall_source (by decide) (by decide), by decide⟩

/-- The record of the RISING source, with a sample waiting. -/
def drying : State :=
  { damp rising 650 with pending := [.humiditySample .extract], demand := dampTable 68 }

theorem witness_EveryStepKeepsTheHumidityRecord :
    drying.demand.Ok ∧ drying.SettingsOk ∧ drying.RecordAligned ∧ (∀ i : SourceId, (drying.humidity.source i).Ok)
      ∧ ∃ t, step drying = .next t :=
  ⟨by decide, by decide, by decide, forall_source (by decide) (by decide), _, rfl⟩

/-! ### Witnesses: the resolver -/

/-- A HOLD of level 0 and one of level 40, tag 9. -/
def holdRecord (level : Nat) : DemandRecord := ⟨4, 1, .link, .hold, level, some 9, .indefinite, none, 5, 50, false⟩

/-- The house with the four records, and with a HOLD after them. -/
def asking : State := { home with demand := table }

def heldAt (level : Nat) : State :=
  { home with demand := { table with live := table.live ++ [holdRecord level] } }

/-- A SETBACK of level 30 alone. -/
def setBack : State :=
  { home with demand := { table with live := [⟨0, 1, .link, .setback, 30, some 1, .indefinite, none, 1, 0, false⟩] } }

/-- The house without a supply filter, and with an OVERDUE one. -/
def unfiltered : State := { home with filters := ⟨none, some cleanFilter⟩ }

def overdue : State := { home with filters := ⟨some { cleanFilter with state := .overdue }, some cleanFilter⟩ }

theorem witness_ResolutionIsBalancedAndCapped :
    (ready.resolver.mode = .startup ∧ home.resolver.mode = .run ∧ home.frost.stage ≠ .stop)
      ∧ ((heldAt 40).demand.live = table.live ++ holdRecord 40 :: [] ∧ (holdRecord 40).kind = .hold
        ∧ (holdRecord 40).held = false ∧ (holdRecord 40).level ≠ 0 ∧ (holdRecord 0).level = 0
        ∧ (heldAt 40).filters.missing = false ∧ (heldAt 40).filters.anyIn .overdue = false)
      ∧ ((∀ r ∈ asking.demand.live, r.kind ≠ .hold) ∧ linkRecord ∈ asking.demand.live
        ∧ linkRecord.kind = .boost ∧ linkRecord.held = false ∧ ∀ r ∈ asking.demand.live, r.kind ≠ .setback)
      ∧ (∃ r ∈ setBack.demand.live, r.kind = .setback ∧ r.held = false)
      ∧ unfiltered.filters.supply = none
      ∧ (overdue.filters.slot .supply = some { cleanFilter with state := .overdue })
      ∧ (home.drive.fan .sup).state = .running ∧ (home.drive.fan .ext).state = .running
      ∧ (resting.drive.fan .sup).state = .faultRest ∧ (locked.drive.fan .sup).state = .locked := by decide

theorem witness_ModesChange :
    (ready.running = true ∧ ready.resolver.mode = .startup ∧ home.resolver.mode ≠ .startup)
      ∧ ready.answering = true ∧ ((0 : Byte).toNat = 0 ∧ 4 ≤ (4 : Byte).toNat)
      ∧ ((1 : Byte).toNat = 1 ∧ (2 : Byte).toNat = 2 ∧ (3 : Byte).toNat = 3)
      ∧ (home.answering = true ∧ home.resolver.mode = .run ∧ home.resolver.mode ≠ .standby)
      ∧ installing.resolver.mode = .commission := by decide

theorem witness_EveryStepKeepsTheView :
    told.demand.Ok ∧ told.SettingsOk ∧ told.ViewCurrent ∧ told.RequestsCurrent ∧ told.resolver.ModesOk
      ∧ ∃ t, step told = .next t := ⟨by decide, by decide, by decide, by decide, by decide, _, rfl⟩

/-! ### Witnesses: the pressure channel -/

/-- A LINK request that waits behind a FROST measurement. -/
def waiting : State :=
  { sampling with pressure := { sampling.pressure with
      link := some ⟨.supFilter, none, false⟩, record := ⟨.waiting, some .supFilter, none, none⟩ } }

theorem witness_MeasureFilesTheLinkRequest :
    home.running = true ∧ dark.running = false ∧ (home.answering = true ∧ 4 ≤ (4 : Byte).toNat) ∧ ((3 : Byte).toNat < 4 ∧ ready.resolver.mode = .startup)
      ∧ (waiting.answering = true ∧ waiting.pressure.record.state = .waiting ∧ waiting.resolver.mode = .run)
      ∧ ([Tap.flow, .supFilter, .extFilter, .exch][(3 : Byte).toNat]? = some .exch ∧ home.resolver.mode = .run
        ∧ home.pressure.record.state = .none ∧ home.pressure.RecordOk ∧ home.pressure.phase = .free
        ∧ home.eligible .frost = false ∧ home.eligible .trim = false)
      ∧ (sampling.pressure.RecordOk ∧ sampling.pressure.record.state = .none ∧ sampling.pressure.phase ≠ .free) := by
  decide

/-- A measurement of the supply filter, and of the host, seven readings in. -/
def gauging : State :=
  { home with pressure := { ready.pressure with
      position := .supFilter, phase := .sample ⟨.filter, .supFilter, some .supply, 7, 2800, false⟩
      filter := some ⟨.supFilter, some .supply, true⟩, history := [.filter] } }

def obliging : State :=
  { home with pressure := { ready.pressure with
      position := .extFilter, phase := .sample ⟨.link, .extFilter, none, 7, 2800, false⟩
      link := some ⟨.extFilter, none, true⟩, record := ⟨.inProgress, some .extFilter, none, none⟩
      history := [.link] } }

/-- Clause by clause: SELECT, SAMPLE, FREE; the eighth reading of LINK, FLOW, FROST and FILTER; a first reading. -/
theorem witness_ReadingsAddUpToAResult :
    (obliging.running = true ∧ obliging.pressure.phase = .sample ⟨.link, .extFilter, none, 7, 2800, false⟩
        ∧ home.pressure.phase = .free ∧ 4294967295 < 4294967296)
      ∧ trimming.pressure.phase = .sample ⟨.trim, .flow, none, 7, 1400, false⟩
      ∧ (4294967295 < 4294967296 ∧ obliging.freshFlow = none
        ∧ State.freshFlow { obliging with pressure := { obliging.pressure with
            flowEntry := some ⟨⟨480, false, .orifice 291⟩, .link, 40⟩, fresh := true } } = some 291)
      ∧ (trimming.drive.steady = true ∧ trimming.drive.sup.state = .running ∧ trimming.drive.sup.source = .auto
        ∧ 0 < trimming.resolver.view.s1)
      ∧ sampling.pressure.phase = .sample ⟨.frost, .exch, none, 7, 3360, false⟩
      ∧ (gauging.pressure.phase = .sample ⟨.filter, .supFilter, some .supply, 7, 2800, false⟩ ∧ Tap.supFilter ≠ .flow
        ∧ FilterSlot.supply ≠ .extract ∧ ({ gauging with filters := ⟨none, none⟩ } : State).filters.slot .supply = none)
      ∧ (min 1250 (max 750 (roundDiv (1000 * (200 + 188)) (2 * 188))) ≠ 1000
        ∧ Tap.extFilter ≠ .flow ∧ Tap.exch ≠ .flow)
      ∧ (7 ≤ 7 ∧ (6 : Nat) < 7 ∧ (5000 : Int) ≤ 5000 ∧ ¬(5000 : Int) ≤ 4999) := by decide

/-- The FILTER slots both empty, with the FILTER timer running. -/
def bare : State := { home with filters := ⟨none, none⟩ }

theorem witness_RequestTimersFileTheirRequests :
    (home.running = true ∧ home.pressure.trimTimer ≠ none ∧ home.pressure.frostTimer ≠ none
        ∧ home.pressure.filterTimer ≠ none ∧ home.pressure.filter = none ∧ home.pressure.phase = .free)
      ∧ trimming.pressure.trimTimer = none
      ∧ ((home.filters.slot .supply).isSome = true ∧ home.pressure.lastSlot = none)
      ∧ (gauging.pressure.filter ≠ none)
      ∧ (bare.filters.slot .supply = none ∧ bare.filters.slot .extract = none) := by decide

/-- The house with FROST and TRIM requests and a grant history. -/
def filing (frost trim : Option Request) (history : List Requester) : State :=
  { home with pressure := { ready.pressure with frost := frost, trim := trim, history := history } }

/-- With the request filed: the requester that the grant then finds, and the exception after two grants to FROST. -/
theorem witness_RequestTimersFileTheirRequests_grants :
    ((filing none (some ⟨.flow, none, false⟩) []).eligible .trim = true
        ∧ (filing none (some ⟨.flow, none, false⟩) []).eligible .frost = false ∧ ([] : List Requester) ≠ [.frost, .frost])
      ∧ ((filing (some ⟨.exch, none, false⟩) (some ⟨.flow, none, false⟩) [.frost, .frost]).eligible .trim = true
        ∧ (filing (some ⟨.exch, none, false⟩) (some ⟨.flow, none, false⟩) [.frost, .frost]).eligible .frost = true)
      ∧ ((filing (some ⟨.exch, none, false⟩) none []).eligible .frost = true
        ∧ ∀ r ∈ [Requester.trim, .link, .filter], (filing (some ⟨.exch, none, false⟩) none []).eligible r = false)
      ∧ ready.eligible .frost = false ∧ ready.eligible .link = false := by decide

/-- The LINK request waiting behind FROST, with the eighth reading at hand. -/
def eighth : State := { waiting with pending := [.reading 480] }

theorem witness_EveryStepKeepsThePressureChannel : eighth.pressure.Ok ∧ ∃ t, step eighth = .next t :=
  ⟨⟨by decide, by decide, by decide, by decide, by decide, by decide, by decide, by decide⟩, _, rfl⟩

/-! ### Witnesses: the frost guard and the filter table -/

/-- The guard in STOP for a reason, its hold count and stop timer at their ends. -/
def stopped (r : Reason) : Frost := { ready.frost with stage := .stop, reason := r, hold := 179, stopTimer := 3600 }

/-- Clause by clause, at the ends of their ranges: the cold stop, CLEAR, WATCH, LIMIT, CYCLE and STOP. -/
theorem witness_FrostEvaluationsMoveTheStage :
    (ready.running = true ∧ ready.resolver.mode = .startup)
      ∧ ((frosty limiting 5 (-250)).running = true ∧ (frosty limiting 5 (-250)).sensing.eha.usable = some 5
        ∧ (frosty limiting 5 (-250)).resolver.mode = .run ∧ (frosty limiting 5 (-250)).sensing.dewPoint = none
        ∧ (frosty limiting 5 (-250)).sensing.oa.usable = some (-250)
        ∧ (-250 : Int) ≤ (frosty limiting 5 (-250)).params.get .stopOa ∧ limiting.stage ≠ .stop)
      ∧ ¬(-249 : Int) ≤ Params.default.get .stopOa
      ∧ (ready.frost.stage = .clear ∧ (30 : Int) ≤ Params.default.get .frostWatch
        ∧ Params.default.get .frostWatch < (31 : Int))
      ∧ ((10 : Int) ≤ Params.default.get .frostLimit ∧ Params.default.get .frostLimit < (11 : Int)
        ∧ Params.default.get .frostWatch + 15 ≤ (45 : Int) ∧ min 60 (59 + 1) = 60)
      ∧ (limiting.stage = .limit ∧ Params.default.get .frostLimit + 10 ≤ (20 : Int) ∧ min 30 (29 + 1) = 30
        ∧ ({ limiting with ice := 2 } : Frost).ice = 2 ∧ (0 : Int) ≤ 0
        ∧ ({ limiting with priorReduction := 50 } : Frost).priorReduction = Params.default.nat .frostReduceMax)
      ∧ cycling.stage = .cycle
      ∧ ((stopped .cold).stage = .stop ∧ (stopped .cold).reason = .cold
        ∧ Params.default.get .stopOa + 30 ≤ (-220 : Int))
      ∧ ((stopped .iced).stage = .stop ∧ (stopped .iced).reason ≠ .cold ∧ 3600 ≤ (stopped .iced).stopTimer) := by decide

theorem witness_FallbackSetsTheStageFromOutdoors :
    home.running = true ∧ home.sensing.eha.usable = none ∧ home.resolver.mode = .run ∧ home.frost.stage ≠ .cycle
      ∧ ({ home with frost := cycling } : State).frost.stage = .cycle
      ∧ ({ home with frost := cycling } : State).sensing.oa.usable = none
      ∧ (home.sensing.oa.usable = none ∧ Stage.cycle ≠ home.frost.stage)
      ∧ ({ home with sensing := { home.sensing with oa := ⟨.valid, some 1, 0, some 1⟩ } } : State).sensing.oa.usable = some 1
      ∧ home.frost.stage = .clear := by decide

/-- A cycle at its end, its GATE window open with a measurement in flight. -/
def gating : State :=
  { home with
    frost := { cycling with windows := ⟨false, false, true⟩ }
    pressure := { ready.pressure with
      position := .exch, phase := .sample ⟨.frost, .exch, none, 3, 100, false⟩, frost := some ⟨.exch, none, true⟩
      history := [.frost] } }

/-- The next edge after 480 is 481; after 1799 there is none. -/
theorem witness_CyclesRunAndAreJudged :
    (home.running = true ∧ home.frost.stage ≠ .cycle ∧ cycling.stage = .cycle)
      ∧ (480 < 481 ∧ 481 ≤ cycling.latched.limit ∧ cycling.latched.windowsAt 481 ≠ cycling.latched.windowsAt 480)
      ∧ (cycling.fallback = false ∧ cycling.unjudged = false ∧ cycling.gateResult = some (.ratio 110)
        ∧ 110 ≤ home.params.nat .clearRatio ∧ home.params.nat .clearRatio < 116 ∧ cycling.margin = some 12
        ∧ home.params.get .frostLimit ≤ 12 ∧ (9 : Int) < home.params.get .frostLimit
        ∧ home.params.get .frostLimit + 10 ≤ 20 ∧ 4 ≤ cycling.failed + 1)
      ∧ ({ cycling with unjudged := true } : Frost).unjudged = true ∧ ({ cycling with fallback := true } : Frost).fallback = true
      ∧ ({ cycling with gateResult := none } : Frost).gateResult = none
      ∧ (gating.running = true ∧ gating.pressure.phase.flight = some ⟨.frost, .exch, none, 3, 100, false⟩
        ∧ State.gateOpen { gating with frost := { gating.frost with windows := .closed } } .frost = false)
      ∧ (fallbackStage home.params none = .cycle ∧ fallbackStage home.params (some (-149)) ≠ .cycle)
      ∧ home.answering = true ∧ ({ ready.frost with baseline := ⟨8, 318, some 40⟩ } : Frost).baseline.pn0 ≠ none := by
  decide

theorem witness_CyclesRunAndAreJudged_last_window :
    ∀ n, 1799 < n → n ≤ cycling.latched.limit → cycling.latched.windowsAt n = cycling.latched.windowsAt 1799 := by
  intro n h k
  have : n = 1800 := by have : cycling.latched.limit = 1800 := by decide
                        omega
  subst this
  decide

/-- A record that learns its eighth result, in service and without a baseline. -/
def learning : FilterRecord :=
  { cleanFilter with pn0 := none, origin := none, learnCount := 7, learnSum := 2678, state := .learning }

theorem witness_ResultsReachTheirConsumers :
    (sampling.running = true ∧ sampling.pressure.phase = .sample ⟨.frost, .exch, none, 7, 3360, false⟩
        ∧ Tap.exch ≠ .flow ∧ 7 ≤ 7 ∧ sampling.frost.baseline.pn0 = none ∧ sampling.frost.stage = .clear
        ∧ sampling.drive.steady = true)
      ∧ (gauging.running = true ∧ gauging.pressure.phase = .sample ⟨.filter, .supFilter, some .supply, 7, 2800, false⟩
        ∧ gauging.filters.slot .supply = some cleanFilter ∧ cleanFilter.pn0 = some 400)
      ∧ learning.pn0 = none ∧ 8 ≤ learning.learnCount + 1
      ∧ seen (fun t => t.filters.supply.map (·.state))
        (exec (.reading 480) { gauging with filters := ⟨some { cleanFilter with pn0 := some 100 }, some cleanFilter⟩ }) =
        some (some .overdue)
      ∧ ({ sampling with frost := { limiting with baseline := ⟨8, 318, some 40⟩ } } : State).frost.stage = .limit := by
  decide

/-- The guard in a cycle at its 480th second, with the edge waiting. -/
def edging : State :=
  { frosty { cycling with counter := 480, windows := ⟨true, true, false⟩, gateResult := none } 9 0 with
    pending := [.windowEdge] }

theorem witness_EveryStepKeepsTheFrostGuard :
    edging.SettingsOk ∧ edging.resolver.ModesOk ∧ edging.frost.CycleOk ∧ edging.frost.CountsOk ∧ edging.StandDownOk
      ∧ ∃ t, step edging = .next t := ⟨by decide, by decide, by decide, by decide, by decide, _, rfl⟩

theorem witness_FiltersAreFittedAndRetired :
    home.answering = true ∧ 2 ≤ (2 : Byte).toNat ∧ 3 ≤ (3 : Byte).toNat
      ∧ [FilterSlot.supply, .extract][(1 : Byte).toNat]? = some .extract
      ∧ [Grade.coarse, .medium, .fine][(2 : Byte).toNat]? = some .fine
      ∧ home.filters.slot .extract = some cleanFilter ∧ bare.answering = true ∧ bare.filters.slot .extract = none
      ∧ (∃ q ∈ gauging.pressure.filter, q.slot = some .supply) ∧ ¬∃ q ∈ home.pressure.filter, q.slot = some .supply := by
  decide

theorem witness_VolumesAndHoursAccumulate :
    home.running = true ∧ (ready.drive.sup.commanded = 0 ∧ ready.drive.ext.commanded = 0 ∧ home.drive.sup.commanded ≠ 0)
      ∧ home.hours < 4294967295 ∧ 4294967295 ≤ ({ home with hours := 4294967295 } : State).hours
      ∧ home.filters.slot .supply = some cleanFilter ∧ bare.filters.slot .supply = none
      ∧ (cleanFilter.state ≠ .overdue
        ∧ seen (fun t => t.filters.supply.map (·.state)) (exec .operatingHoursAdvance { home with hours := 5099 }) =
          some (some .overdue)) := by decide

end Sys2Proof.Tests
end

