-- ==== Sys2Proof/Proofs/Sensing.lean ====
section
/-! PROOFS. Sensing: symmetric rounding, the classes of a sample, and what a sample or the end of a hold does to its
channel (R1, R4 to R11). -/

namespace Sys2Proof.Machine

/-! ### Rounding and clamping -/

/-- R1: the rounded quotient lies within half a divisor of the exact one, a half rounded up. -/
theorem roundDiv_bounds (a : Nat) {b : Nat} (hb : 0 < b) :
    2 * b * roundDiv a b ≤ 2 * a + b ∧ 2 * a + b < 2 * b * (roundDiv a b + 1) :=
  ⟨Nat.mul_div_le _ _, Nat.lt_mul_div_succ _ (by omega)⟩

/-- R1: symmetric rounding of a non-negative number takes a half up. -/
theorem symRound_bounds_of_nonneg {a : Int} {b : Nat} (hb : 0 < b) (ha : 0 ≤ a) :
    2 * a - b < 2 * b * symRound a b ∧ 2 * b * symRound a b ≤ 2 * a + b := by
  obtain ⟨upper, lower⟩ := roundDiv_bounds a.natAbs hb
  zify [abs_of_nonneg ha] at upper lower
  rw [symRound, if_neg (not_lt.mpr ha)]
  constructor <;> linarith

/-- R1: symmetric rounding of a negative number takes a half down. -/
theorem symRound_bounds_of_neg {a : Int} {b : Nat} (hb : 0 < b) (ha : a < 0) :
    2 * a - b ≤ 2 * b * symRound a b ∧ 2 * b * symRound a b < 2 * a + b := by
  obtain ⟨upper, lower⟩ := roundDiv_bounds a.natAbs hb
  zify [abs_of_neg ha] at upper lower
  rw [symRound, if_pos ha]
  constructor <;> linarith

theorem clampInt_of_lt {lo hi x : Int} (h : x < lo) : clampInt lo hi x = lo := if_pos h

theorem clampInt_of_mem {lo hi x : Int} (hlo : lo ≤ x) (hhi : x ≤ hi) : clampInt lo hi x = x := by
  rw [clampInt, if_neg (not_lt.mpr hlo), if_neg (not_lt.mpr hhi)]

theorem clampInt_of_gt {lo hi x : Int} (hlo : lo ≤ x) (hhi : hi < x) : clampInt lo hi x = hi := by
  rw [clampInt, if_neg (not_lt.mpr hlo), if_pos hhi]

/-! ### The classes of a sample -/

theorem classify_temperature {c : AnalogChannel} (h : c ∈ [AnalogChannel.oa, .sa, .ea, .eha]) (v : Int) :
    classify c v = temperatureSample v := by
  simp only [List.mem_cons, List.not_mem_nil, or_false] at h
  rcases h with rfl | rfl | rfl | rfl <;> rfl

theorem classify_rh {c : AnalogChannel} (h : c ∈ [AnalogChannel.outdoorRh, .extractRh]) (v : Int) :
    classify c v = rhSample v := by
  simp only [List.mem_cons, List.not_mem_nil, or_false] at h
  rcases h with rfl | rfl <;> rfl

/-- R5: a temperature sample outside the failure limits is failed. -/
theorem temperatureSample_failed {v : Int} (h : v < -450 ∨ 700 < v) : temperatureSample v = none := if_pos h

/-- R5: a temperature sample within the failure limits is clamped. -/
theorem temperatureSample_good {v : Int} (hlo : -450 ≤ v) (hhi : v ≤ 700) :
    temperatureSample v = some (clampInt (-400) 600 v) := if_neg (by omega)

/-- R6: a humidity sample outside the failure limits is failed. -/
theorem rhSample_failed {v : Int} (h : v < -50 ∨ 1050 < v) : rhSample v = none := if_pos h

/-- R6: a humidity sample within the failure limits is clamped. -/
theorem rhSample_good {v : Int} (hlo : -50 ≤ v) (hhi : v ≤ 1050) : rhSample v = some (clampInt 0 1000 v) :=
  if_neg (by omega)

/-- Settles O25: the bounds of symmetric rounding at eight conversions, and each interval of R5 and R6 by the failure
test and the clamp. -/
theorem samplesAreClassifiedMeans : Obligations.SamplesAreClassifiedMeans := by
  refine ⟨fun v => ⟨fun h => ?nonneg, fun h => ?neg⟩, fun c hc v => ?temperature, fun c hc v => ?humidity⟩
  case nonneg =>
    obtain ⟨lower, upper⟩ := symRound_bounds_of_nonneg (b := 8) (by decide) h
    unfold sampleMean
    omega
  case neg =>
    obtain ⟨lower, upper⟩ := symRound_bounds_of_neg (b := 8) (by decide) h
    unfold sampleMean
    omega
  case temperature =>
    rw [classify_temperature hc]
    refine ⟨temperatureSample_failed, fun _ _ => ?_, fun _ _ => ?_, fun _ _ => ?_⟩ <;>
      rw [temperatureSample_good (by omega) (by omega)]
    · rw [clampInt_of_lt (by omega)]
    · rw [clampInt_of_mem (by omega) (by omega)]
    · rw [clampInt_of_gt (by omega) (by omega)]
  case humidity =>
    rw [classify_rh hc]
    refine ⟨rhSample_failed, fun _ _ => ?_, fun _ _ => ?_, fun _ _ => ?_⟩ <;>
      rw [rhSample_good (by omega) (by omega)]
    · rw [clampInt_of_lt (by omega)]
    · rw [clampInt_of_mem (by omega) (by omega)]
    · rw [clampInt_of_gt (by omega) (by omega)]

/-! ### Channels by name -/

@[simp] theorem Sensing.channel_setChannel_self (x : Sensing) (c : AnalogChannel) (v : Channel) :
    (x.setChannel c v).channel c = v := by
  cases c <;> rfl

theorem Sensing.channel_setChannel_of_ne (x : Sensing) {c d : AnalogChannel} (v : Channel) (h : d ≠ c) :
    (x.setChannel c v).channel d = x.channel d := by
  cases c <;> cases d <;> first | rfl | exact absurd rfl h

@[simp] theorem Sensing.setChannel_channel_self (x : Sensing) (c : AnalogChannel) :
    x.setChannel c (x.channel c) = x := by
  cases c <;> rfl

/-! ### A channel's move -/

/-- R11: a channel that keeps its status sets no notice. -/
@[simp] theorem sensorNotice_self (x : ChannelStatus) : sensorNotice x x = false := by cases x <;> rfl

/-- R11: a channel becomes VALID with the notice where it was INVALID. -/
@[simp] theorem sensorNotice_valid (x : ChannelStatus) : sensorNotice x .valid = decide (x = .invalid) := by
  cases x <;> rfl

/-- R11: a channel that was not INVALID becomes INVALID with the notice. -/
theorem sensorNotice_invalid {x : ChannelStatus} (h : x ≠ .invalid) : sensorNotice x .invalid = true := by
  simp [sensorNotice, h]

/-- A channel that takes its own items leaves the state as it is. -/
@[simp] theorem State.moveChannel_channel_self (s : State) (c : AnalogChannel) :
    s.moveChannel c (s.sensing.channel c) = s := by
  simp [State.moveChannel, State.notifyIf]

/-- R11: a move that R11 names sets SENSOR. -/
theorem State.moveChannel_of_notice {s : State} {c : AnalogChannel} {v : Channel}
    (h : sensorNotice (s.sensing.channel c).status v.status = true) :
    s.moveChannel c v = State.notify { s with sensing := s.sensing.setChannel c v } .sensor := by
  simp [State.moveChannel, State.notifyIf, h]

/-- R11: any other move sets no notice. -/
theorem State.moveChannel_of_quiet {s : State} {c : AnalogChannel} {v : Channel}
    (h : sensorNotice (s.sensing.channel c).status v.status = false) :
    s.moveChannel c v = { s with sensing := s.sensing.setChannel c v } := by
  simp [State.moveChannel, State.notifyIf, h]

/-! ### What a sample and a hold's end make of a channel -/

/-- R8: a good sample makes the channel VALID with its value, whatever the status. -/
@[simp] theorem Channel.take_some (x : Channel) (v : Int) : x.take (some v) = ⟨.valid, some v, 0, some v⟩ := rfl

/-- R9: a failed sample begins the hold of a VALID channel, which keeps its value. -/
theorem Channel.take_none_of_valid {x : Channel} (h : x.status = .valid) :
    x.take none = { x with status := .held, hold := 60 } := by simp [Channel.take, h]

/-- R9: a failed sample leaves a HELD or an INVALID channel. -/
theorem Channel.take_none_of_held_or_invalid {x : Channel} (h : x.status = .held ∨ x.status = .invalid) :
    x.take none = x := by rcases h with h | h <;> simp [Channel.take, h]

/-- R7: a failed sample makes a PENDING channel INVALID. -/
theorem Channel.take_none_of_pending {x : Channel} (h : x.status = .pending) :
    x.take none = { x with status := .invalid, value := none, hold := 0 } := by simp [Channel.take, h]

/-- R10: a HELD channel whose hold runs out becomes INVALID. -/
theorem Channel.expire_of_held {x : Channel} (h : x.status = .held) :
    x.expire = { x with status := .invalid, value := none, hold := 0 } := if_pos h

theorem Channel.expire_of_not_held {x : Channel} (h : x.status ≠ .held) : x.expire = x := if_neg h

/-- ANALOG_SAMPLE of a running part moves its channel by the class of the sample. -/
theorem exec_analogSample {s : State} (h : s.running = true) (c : AnalogChannel) (conversions : Vector Int 8) :
    exec (.analogSample c conversions) s =
      .next (s.moveChannel c ((s.sensing.channel c).take (classify c (sampleMean conversions)))) := by
  change execAnalogSample c conversions s = _
  rw [execAnalogSample, partEvent_of_running h]

/-- HOLD_TIMER_EXPIRY of a running part ends its channel's hold. -/
theorem exec_holdTimerExpiry {s : State} (h : s.running = true) (c : AnalogChannel) :
    exec (.holdTimerExpiry c) s = .next (s.moveChannel c (s.sensing.channel c).expire) := by
  change execHoldTimerExpiry c s = _
  rw [execHoldTimerExpiry, partEvent_of_running h]

/-- Settles O26: each class of sample and each status of the channel by what `Channel.take` and `Channel.expire` make of
it, with the notice of that move. -/
theorem analogChannelsFollowTheirSamples : Obligations.AnalogChannelsFollowTheirSamples := by
  intro c conversions s running x moved
  rw [exec_analogSample running, exec_holdTimerExpiry running]
  refine ⟨fun v good => ?good, fun failed => ?failed, fun held => ?ended, fun other => ?unheld, fun v d => ?frame⟩
  case good => rw [good, Channel.take_some, State.moveChannel, sensorNotice_valid]
  case failed =>
    rw [failed]
    refine ⟨fun valid => ?_, fun still => ?_, fun pending => ?_⟩
    · rw [Channel.take_none_of_valid valid, State.moveChannel_of_quiet (by rw [valid]; rfl)]
    · rw [Channel.take_none_of_held_or_invalid still, State.moveChannel_channel_self]
    · rw [Channel.take_none_of_pending pending,
        State.moveChannel_of_notice (sensorNotice_invalid (by rw [pending]; decide))]
  case ended =>
    rw [Channel.expire_of_held held, State.moveChannel_of_notice (sensorNotice_invalid (by rw [held]; decide))]
  case unheld => rw [Channel.expire_of_not_held other, State.moveChannel_channel_self]
  case frame =>
    split
    case isTrue same => rw [same, Sensing.channel_setChannel_self]
    case isFalse differ => exact Sensing.channel_setChannel_of_ne s.sensing v differ

end Sys2Proof.Machine
end

