-- ==== Sys2Proof/Proofs/Demand.lean ====
section
/-! PROOFS. The demand table: the records that a filing makes or amends and that an expiry retires (R24 to R37). -/

namespace Sys2Proof.Machine

/-! ### What a recompute leaves -/

theorem State.RecomputedTo.demand_eq {s t : State} (h : s.RecomputedTo t) : t.demand = s.demand :=
  (congrArg State.demand h.1).trans rfl

theorem State.RecomputedTo.notices_eq {s t : State} (h : s.RecomputedTo t) : t.notices = s.notices :=
  (congrArg State.notices h.1).trans rfl

theorem State.RecomputedTo.running_eq {s t : State} (h : s.RecomputedTo t) : t.running = s.running :=
  (congrArg State.running h.1).trans rfl

/-! ### Fields of a request -/

theorem clampStatus_or (p q : Prop) [Decidable p] [Decidable q] :
    clampStatus (decide p || decide q) = if p ∨ q then .clamped else .ok := by
  rw [← Bool.decide_or]
  simp only [clampStatus, decide_eq_true_eq]

/-- R32: the time that a requested duration leaves at its start. -/
theorem start_requestedDuration (duration : Half) :
    (requestedDuration duration).start = if duration = 0 then none else some (min 1440 duration.toNat * 60) := by
  unfold requestedDuration
  split <;> rfl

/-! ### The table's operations -/

/-- R29: a counter below its largest value leaves the table as it is. -/
theorem DemandTable.makeRoom_of_lt {t : DemandTable} (h : t.counter < maxCounter) : t.makeRoom = t := if_pos h

/-- R29: a counter at its largest value renumbers the live records. -/
theorem DemandTable.makeRoom_of_ge {t : DemandTable} (h : maxCounter ≤ t.counter) :
    t.makeRoom = { t with live := renumber 1 t.live, counter := t.live.length } := if_neg (not_lt.mpr h)

/-- R36: a new record stands in the entry at the head of the free list, last in the order. -/
theorem DemandTable.add_of_free {t : DemandTable} {e : Fin 24} {rest : List (Fin 24)} (h : t.freeList = e :: rest)
    (x : Draft) (now : Nat) :
    t.add x now =
      { live := t.makeRoom.live ++
          [{ entry := e, gen := nextGeneration t.gens[e], origin := x.origin, kind := x.kind, level := x.level
             tag := x.tag, duration := x.duration, remaining := x.duration.start, seq := t.makeRoom.counter + 1
             filedAt := now, held := x.held }]
        gens := t.gens.set e (nextGeneration t.gens[e])
        freeList := rest
        counter := t.makeRoom.counter + 1 } := by
  rw [DemandTable.add, h]

theorem DemandTable.newestHandle_of_last {t : DemandTable} {old : List DemandRecord} {r : DemandRecord}
    (h : t.live = old ++ [r]) : t.newestHandle = r.handle := by
  simp [DemandTable.newestHandle, h]

/-- R25: a live record is the one its handle names. -/
theorem DemandTable.find_handle {t : DemandTable} (h : t.Ok) {r : DemandRecord} (hr : r ∈ t.live) :
    t.find r.handle = some r := by
  obtain ⟨entries, records, -⟩ := h
  have gen_le : ∀ x ∈ t.live, x.gen ≤ 255 := fun x hx => (records x hx).1.2.1
  obtain ⟨entry_byte, gen_byte⟩ := r.handle_bytes (gen_le r hr)
  have gen_pos : 1 ≤ r.gen := (records r hr).1.1
  have named : r.handle.extractLsb' 8 8 ≠ 0 := fun zero => by rw [zero] at gen_byte; simp at gen_byte; omega
  rw [DemandTable.find, if_neg named]
  cases found : t.live.find? fun x => x.handle = r.handle with
  | none => exact absurd (List.find?_eq_none.mp found r hr) (by simp)
  | some x =>
    have hx : x ∈ t.live := List.mem_of_find?_eq_some found
    have same : x.handle = r.handle := by simpa using List.find?_some found
    have entry_eq : x.entry.val = r.entry.val := by
      rw [((x.handle_eq r.handle (gen_le x hx)).mp same).1, entry_byte]
    rw [entries.inj hx hr (Fin.ext entry_eq)]

/-! ### FILE_DEMAND -/

theorem exec_fileDemand {s : State} (h : s.answering = true) {kind : Byte} {k : Kind}
    (hk : memberOf Kind.members kind = some k) (level : Byte) (duration : Half) (tag : Byte) :
    exec (.fileDemand kind level duration tag) s =
      .next (s.fileLink k (clampLevel level) (requestedDuration duration) tag
        (if 100 < level.toNat ∨ 1440 < duration.toNat then .clamped else .ok)) := by
  change execFileDemand kind level duration tag s = _
  rw [execFileDemand, hostCommand_of_answering h, hk, clampStatus_or]

/-- What a LINK filing gives its new record (R36). -/
def linkDraft (k : Kind) (level : Nat) (d : Duration) (tag : Byte) : Draft := ⟨.link, k, level, some tag, d, false⟩

/-- R35 and R36: a filing with a new key below the quota answers the handle of the record it makes. -/
theorem State.fileLink_of_new {s : State} {k : Kind} {tag : Byte} (key : s.demand.byTag k tag = none)
    (quota : s.demand.linkCount < 16) (level : Nat) (d : Duration) (status : Status) :
    s.fileLink k level d tag status =
      (s.fileRecord (linkDraft k level d tag)).respond status
        (bytesOfHalf (s.fileRecord (linkDraft k level d tag)).demand.newestHandle ++ [0]) := by
  rw [State.fileLink, key]
  exact if_pos quota

/-- R37: a filing with the key of a live record amends that record. -/
theorem State.fileLink_of_match {s : State} {k : Kind} {tag : Byte} {r : DemandRecord}
    (key : s.demand.byTag k tag = some r) (level : Nat) (d : Duration) (status : Status) :
    s.fileLink k level d tag status =
      (s.amendRecord r fun x => { x with level }.restart d).respond status (bytesOfHalf r.handle ++ [1]) := by
  rw [State.fileLink, key]
  rfl

/-- Settles O18: the filing takes the branch of a new key; what it makes is `DemandTable.add` at the head of the free
list, and a full counter renumbers by `renumber`. -/
theorem fileDemandMakesANewRecord : Obligations.FileDemandMakesANewRecord := by
  intro kind level tag duration s k e rest answering known fresh quota free minutes old r
  refine ⟨DemandTable.makeRoom_of_lt, fun full => ?renumbered, ?filed⟩
  case renumbered =>
    rw [show old = _ from DemandTable.makeRoom_of_ge full]
    refine ⟨rfl, ?_, renumber_rest 1 _⟩
    rw [renumber_seq, List.range'_eq_map_range]
    simp only [Nat.add_comm]
  case filed =>
    let x := linkDraft k (clampLevel level) (requestedDuration duration) tag
    have start : x.duration.start = if duration = 0 then none else some (minutes * 60) :=
      start_requestedDuration duration
    have recomputed := s.fileRecord_spec x
    rw [DemandTable.add_of_free free, start] at recomputed
    have newest : (s.fileRecord x).demand.newestHandle = r.handle :=
      DemandTable.newestHandle_of_last (congrArg DemandTable.live recomputed.demand_eq)
    refine ⟨s.fileRecord x, ?_, recomputed⟩
    rw [exec_fileDemand answering known, State.fileLink_of_new (DemandTable.byTag_none fresh) quota, newest]
    rfl

/-- Settles O19: the filing takes the branch of the record with its key, which `State.amendRecord_spec` amends where it
stands. -/
theorem fileDemandAmendsAMatchingRecord : Obligations.FileDemandAmendsAMatchingRecord := by
  intro kind level tag duration s k pre post r answering known ok place origin hk htag minutes r' amended
  let f (x : DemandRecord) : DemandRecord := { x with level := clampLevel level }.restart (requestedDuration duration)
  have filed : f r = r' := congrArg (fun m => { r' with remaining := m }) (start_requestedDuration duration)
  obtain ⟨keeps, recomputes⟩ := State.amendRecord_spec ok.1 place f
  rw [filed] at keeps recomputes
  refine ⟨s.amendRecord r f, ?_, fun same => keeps same rfl, fun differs => recomputes (.inl differs)⟩
  rw [exec_fileDemand answering known, State.fileLink_of_match (DemandTable.byTag_at ok place origin hk htag)]

/-! ### DEMAND_EXPIRY -/

/-- R33: the expiry of a record with a remaining time retires it. -/
theorem exec_demandExpiry_of_timed {s : State} (running : s.running = true) {h : Half} {r : DemandRecord}
    (found : s.demand.find h = some r) (timed : r.remaining.isSome = true) :
    exec (.demandExpiry h) s = .next (s.expireDemand r) := by
  change execDemandExpiry h s = _
  rw [execDemandExpiry, partEvent_of_running running, found]
  exact congrArg _ (if_pos timed)

/-- R33: without a remaining time there is nothing to expire. -/
theorem exec_demandExpiry_of_untimed {s : State} (running : s.running = true) {h : Half}
    (untimed : ∀ r, s.demand.find h = some r → r.remaining = none) : exec (.demandExpiry h) s = .next s := by
  change execDemandExpiry h s = _
  rw [execDemandExpiry, partEvent_of_running running]
  cases found : s.demand.find h with
  | none => rfl
  | some r => simp [untimed r found]

/-- Settles O22: the handle names its record, which `State.expireDemand` retires, with the notice of a LINK record. -/
theorem demandExpiryRetiresTheRecord : Obligations.DemandExpiryRetiresTheRecord := by
  intro s running ok
  refine ⟨fun pre post r place timed => ?_, fun h untimed => exec_demandExpiry_of_untimed running untimed⟩
  have live : r ∈ s.demand.live := by simp [place]
  have retired := State.retireRecord_spec ok.1 place
  refine ⟨s.retireRecord r, ?_, retired⟩
  rw [exec_demandExpiry_of_timed running (DemandTable.find_handle ok live) timed, State.expireDemand,
    State.notifyIf_eq, retired.notices_eq]
  simp only [decide_eq_true_eq]

end Sys2Proof.Machine
end

