-- ==== Sys2Proof/Proofs/Contacts.lean ====
section
/-! PROOFS. Contacts: the debouncing of samples, the cooker's record, the release of NIGHT, and the HUMIDITY record
that follows the contributors (R13, R14, R46, R47, R75, R78, R80 to R82). -/

namespace Sys2Proof.Machine

/-! ### The contributors -/

theorem SourceId.mem_all (i : SourceId) : i ∈ SourceId.all := by
  cases i with
  | extract => exact List.mem_cons_self
  | station n => exact List.mem_cons_of_mem _ (List.mem_map_of_mem (List.mem_finRange n))

theorem Humidity.mem_members {h : Humidity} {x : Source} :
    x ∈ h.members ↔ (∃ j, h.source j = x) ∧ x.state = .rising := by
  simp [Humidity.members, SourceId.mem_all]

/-- R82: the contributors whose NO_DRYING is clear. -/
def Humidity.drying (h : Humidity) : List Source := h.members.filter (!·.noDrying)

theorem Humidity.mem_drying {h : Humidity} {x : Source} : x ∈ h.drying ↔ x ∈ h.members ∧ ¬x.noDrying = true := by
  simp [Humidity.drying]

/-- R82: what the contributor set asks for, by whether it has members and whether any of them dries. -/
theorem Humidity.wanted_eq (h : Humidity) :
    h.wanted =
      if h.members = [] then none
      else if h.drying = [] then some (topLevel h.members, true) else some (topLevel h.drying, false) := by
  unfold Humidity.wanted
  split
  case h_1 no_members => rw [if_pos no_members]
  case h_2 no_drying nonempty => rw [if_neg nonempty]; exact (if_pos no_drying).symm
  case h_3 nonempty no_drying => rw [if_neg nonempty]; exact (if_neg no_drying).symm

theorem topLevel_le_iff {xs : List Source} {n : Nat} : topLevel xs ≤ n ↔ ∀ x ∈ xs, x.level.getD 0 ≤ n := by
  suffices ∀ m, xs.foldl (fun m x => max m (x.level.getD 0)) m ≤ n ↔ m ≤ n ∧ ∀ x ∈ xs, x.level.getD 0 ≤ n by
    simpa [topLevel] using this 0
  induction xs with
  | nil => simp
  | cons x xs ih => simp [ih, and_assoc]

theorem topLevel_eq {xs : List Source} {l : Nat} (attained : ∃ x ∈ xs, x.level.getD 0 = l)
    (bound : ∀ x ∈ xs, x.level.getD 0 ≤ l) : topLevel xs = l := by
  obtain ⟨x, hx, rfl⟩ := attained
  exact le_antisymm (topLevel_le_iff.mpr bound) (topLevel_le_iff.mp le_rfl x hx)

/-- R82: without contributors no record is to be live. -/
theorem Humidity.wanted_of_none_rising {h : Humidity} (none_rising : ∀ j, ¬(h.source j).state = .rising) :
    h.wanted = none := by
  have no_members : h.members = [] := List.eq_nil_iff_forall_not_mem.mpr fun x hx => by
    obtain ⟨⟨j, rfl⟩, rises⟩ := Humidity.mem_members.mp hx
    exact none_rising j rises
  rw [Humidity.wanted_eq, if_pos no_members]

/-- The largest level among the sources that meet a condition. -/
def Humidity.Largest (h : Humidity) (among : SourceId → Prop) (l : Nat) : Prop :=
  (∃ j, among j ∧ (h.source j).level.getD 0 = l) ∧ ∀ j, among j → (h.source j).level.getD 0 ≤ l

/-- R82: where a contributor dries, the largest level among those that do. -/
theorem Humidity.wanted_of_drying {h : Humidity} {l : Nat}
    (largest : h.Largest (fun j => (h.source j).state = .rising ∧ ¬(h.source j).noDrying = true) l) :
    h.wanted = some (l, false) := by
  obtain ⟨⟨j, ⟨rises, dries⟩, top⟩, bound⟩ := largest
  have member : h.source j ∈ h.members := Humidity.mem_members.mpr ⟨⟨j, rfl⟩, rises⟩
  have useful : h.source j ∈ h.drying := Humidity.mem_drying.mpr ⟨member, dries⟩
  rw [Humidity.wanted_eq, if_neg (List.ne_nil_of_mem member), if_neg (List.ne_nil_of_mem useful),
    topLevel_eq ⟨_, useful, top⟩ fun x hx => ?_]
  obtain ⟨hm, hd⟩ := Humidity.mem_drying.mp hx
  obtain ⟨⟨i, rfl⟩, hr⟩ := Humidity.mem_members.mp hm
  exact bound i ⟨hr, hd⟩

/-- R82: where no contributor dries, the largest level of all, HELD. -/
theorem Humidity.wanted_of_none_drying {h : Humidity} {l : Nat}
    (dull : ∀ j, (h.source j).state = .rising → (h.source j).noDrying = true)
    (largest : h.Largest (fun j => (h.source j).state = .rising) l) : h.wanted = some (l, true) := by
  obtain ⟨⟨j, rises, top⟩, bound⟩ := largest
  have member : h.source j ∈ h.members := Humidity.mem_members.mpr ⟨⟨j, rfl⟩, rises⟩
  have none_drying : h.drying = [] := List.eq_nil_iff_forall_not_mem.mpr fun x hx => by
    obtain ⟨hm, hd⟩ := Humidity.mem_drying.mp hx
    obtain ⟨⟨i, rfl⟩, hr⟩ := Humidity.mem_members.mp hm
    exact hd (dull i hr)
  rw [Humidity.wanted_eq, if_neg (List.ne_nil_of_mem member), if_pos none_drying,
    topLevel_eq ⟨_, member, top⟩ fun x hx => ?_]
  obtain ⟨⟨i, rfl⟩, hr⟩ := Humidity.mem_members.mp hx
  exact bound i hr

/-! ### The HUMIDITY record -/

theorem DemandTable.humidityRecord_none {t : DemandTable} (h : ∀ r ∈ t.live, r.origin ≠ .humidity) :
    t.humidityRecord = none :=
  List.find?_eq_none.mpr fun r hr => by simp [h r hr]

theorem DemandTable.humidityRecord_at {t : DemandTable} (ok : t.Ok) {pre post : List DemandRecord} {r : DemandRecord}
    (place : t.live = pre ++ r :: post) (origin : r.origin = .humidity) : t.humidityRecord = some r :=
  t.byOrigin_at ok place origin (by decide)

section
variable {s : State} {r : DemandRecord} {l : Nat} {held : Bool}

theorem State.alignHumidity_of_neither (live : s.demand.humidityRecord = none) (wanted : s.humidity.wanted = none) :
    s.alignHumidity = s := by
  rw [State.alignHumidity, live, wanted]

theorem State.alignHumidity_of_missing (live : s.demand.humidityRecord = none)
    (wanted : s.humidity.wanted = some (l, held)) :
    s.alignHumidity = s.fileRecord ⟨.humidity, .boost, l, none, .absent, held⟩ := by
  rw [State.alignHumidity, live, wanted]
  rfl

theorem State.alignHumidity_of_unwanted (live : s.demand.humidityRecord = some r)
    (wanted : s.humidity.wanted = none) : s.alignHumidity = s.retireRecord r := by
  rw [State.alignHumidity, live, wanted]

theorem State.alignHumidity_of_both (live : s.demand.humidityRecord = some r)
    (wanted : s.humidity.wanted = some (l, held)) :
    s.alignHumidity = s.amendRecord r fun x => { x with level := l, held := held } := by
  rw [State.alignHumidity, live, wanted]

end

/-- R82: the record follows the contributors, in each case of what is live and what is wanted. -/
theorem State.alignHumidity_spec {u : State} (ok : u.demand.Ok) : u.HumidityAlignedTo u.alignHumidity := by
  refine ⟨fun none_rising absent => ?idle, fun none_rising pre post r place origin => ?retired,
    fun l held asks => ?wanted⟩
  case idle =>
    exact State.alignHumidity_of_neither (DemandTable.humidityRecord_none absent)
      (Humidity.wanted_of_none_rising none_rising)
  case retired =>
    rw [State.alignHumidity_of_unwanted (DemandTable.humidityRecord_at ok place origin)
      (Humidity.wanted_of_none_rising none_rising)]
    exact State.retireRecord_spec ok.1 place
  case wanted =>
    have wanted : u.humidity.wanted = some (l, held) := by
      rcases asks with ⟨rfl, largest⟩ | ⟨rfl, dull, largest⟩
      · exact Humidity.wanted_of_drying largest
      · exact Humidity.wanted_of_none_drying dull largest
    refine ⟨fun absent => ?filed, fun pre post r place origin => ?amended⟩
    case filed =>
      rw [State.alignHumidity_of_missing (DemandTable.humidityRecord_none absent) wanted]
      exact State.fileRecord_spec u _
    case amended =>
      obtain ⟨keeps, recomputes⟩ := State.amendRecord_spec ok.1 place fun x => { x with level := l, held := held }
      rw [State.alignHumidity_of_both (DemandTable.humidityRecord_at ok place origin) wanted]
      refine ⟨?_, fun differs => recomputes (differs.imp Ne.symm Ne.symm)⟩
      rintro rfl rfl
      exact (keeps rfl rfl).trans (by rw [← place])

/-! ### The release of NIGHT -/

theorem clampInt_eq_min_max {lo hi : Int} (h : lo ≤ hi) (x : Int) : clampInt lo hi x = min hi (max lo x) := by
  unfold clampInt
  split
  · omega
  · split <;> omega

/-- R75: the level of a rising source. -/
theorem riseLevel_eq (p : Params) (e : Int) :
    riseLevel p e =
      (min (p.get .humLevelMax) (max (min (p.get .baseLevel) (p.get .humLevelMax))
        (p.get .baseLevel
          + symRound ((p.get .humLevelMax - p.get .baseLevel) * e) (2 * p.nat .humRise)))).toNat := by
  rw [riseLevel, clampInt_eq_min_max (min_le_right _ _)]

/-- R75, R78 and R80: the source enters RISING. -/
theorem Source.rise_eq (p : Params) (outdoor : Option Nat) (e t h : Int) (x : Source) :
    x.rise p outdoor e t h =
      { x with
        state := .rising, run := 0
        level := some (min (p.get .humLevelMax) (max (min (p.get .baseLevel) (p.get .humLevelMax))
          (p.get .baseLevel
            + symRound ((p.get .humLevelMax - p.get .baseLevel) * e) (2 * p.nat .humRise)))).toNat
        noDrying :=
          match outdoor with
          | some o => decide ((moisture t h : Int) - o < p.get .dryingMargin)
          | none => false } := by
  rw [Source.rise, riseLevel_eq]
  cases outdoor <;> rfl

@[simp] theorem Humidity.source_release (p : Params) (outdoor : Option Nat) (h : Humidity) (i : SourceId) :
    (h.release p outdoor).source i = (h.source i).release p outdoor := by
  cases i with
  | extract => rfl
  | station n => exact eachStation_getElem _ _ n

/-- R78: a source that is not DEFERRED, or has no sample to be judged on, is left. -/
theorem Source.release_of_unjudged {x : Source} (h : x.state ≠ .deferred ∨ x.last = none ∨ x.deviation = none)
    (p : Params) (outdoor : Option Nat) : x.release p outdoor = x := by
  unfold Source.release
  split
  · simp_all
  · rfl

theorem Source.release_of_deferred {x : Source} {v w e : Int} (state : x.state = .deferred)
    (last : x.last = some (v, w)) (deviation : x.deviation = some e) (p : Params) (outdoor : Option Nat) :
    x.release p outdoor = x.judgeDeferred p outdoor e w v := by
  rw [Source.release, state, last, deviation]

theorem Source.judgeDeferred_of_lt {p : Params} {e : Int} (h : e < p.get .humRise) (outdoor : Option Nat) (t s : Int)
    (x : Source) : x.judgeDeferred p outdoor e t s = { x with state := .quiet } := if_neg (not_le.mpr h)

theorem Source.judgeDeferred_of_ge {p : Params} {e : Int} (h : p.get .humRise ≤ e) (outdoor : Option Nat) (t s : Int)
    (x : Source) : x.judgeDeferred p outdoor e t s = x.rise p outdoor e t s := if_pos h

/-! ### The cooker's record -/

theorem State.passContact_cooker_closed (s : State) : s.passContact .cooker true = s.cookerClosed := rfl

theorem State.passContact_cooker_open (s : State) : s.passContact .cooker false = s.cookerOpened := rfl

theorem State.cookerClosed_of_absent {s : State} (h : s.demand.byOrigin .cooker .boost = none) :
    s.cookerClosed = s.fileRecord ⟨.cooker, .boost, s.params.nat .cookerLevel, none, .absent, false⟩ := by
  rw [State.cookerClosed, h]

section
variable {s : State} (ok : s.demand.Ok) {pre post : List DemandRecord} {r : DemandRecord}
  (place : s.demand.live = pre ++ r :: post) (origin : r.origin = .cooker)
include ok place origin

/-- R46: the run-on of a live record is suspended. -/
theorem State.cookerClosed_at :
    s.cookerClosed =
      { s with demand := { s.demand with live := pre ++ r.restart .absent :: post } } := by
  rw [State.cookerClosed, DemandTable.byOrigin_at ok place origin (by decide)]
  exact (State.amendRecord_spec ok.1 place fun x => x.restart .absent).1 rfl rfl

/-- R47: without a run-on the record is retired. -/
theorem State.cookerOpened_of_no_runon (runon : s.params.nat .cookerRunon = 0) : s.cookerOpened = s.retireRecord r := by
  rw [State.cookerOpened, DemandTable.byOrigin_at ok place origin (by decide)]
  exact if_pos runon

/-- R47: the run-on starts. -/
theorem State.cookerOpened_of_runon (runon : s.params.nat .cookerRunon ≠ 0) :
    s.cookerOpened =
      { s with demand :=
        { s.demand with live := pre ++ r.restart (.minutes (s.params.nat .cookerRunon)) :: post } } := by
  rw [State.cookerOpened, DemandTable.byOrigin_at ok place origin (by decide)]
  refine (if_neg runon).trans ?_
  exact (State.amendRecord_spec ok.1 place fun x => x.restart (.minutes (s.params.nat .cookerRunon))).1 rfl rfl

end

/-! ### Samples of a contact -/

@[simp] theorem Sensing.outdoorMoisture_setContact (x : Sensing) (c : Contact) (v : ContactInput) :
    (x.setContact c v).outdoorMoisture = x.outdoorMoisture := by
  cases c <;> rfl

/-- R13: a sample equal to the debounced level clears the count. -/
theorem ContactInput.sample_of_equal {x : ContactInput} {high : Bool} (h : x.closed = !high) :
    x.sample high = { x with count := 0 } := by
  rw [ContactInput.sample, if_pos (by simp [h])]

/-- R13: the first three samples that differ are counted. -/
theorem ContactInput.sample_of_few {x : ContactInput} {high : Bool} (h : x.closed = high) (few : x.count < 3) :
    x.sample high = { x with count := x.count + 1 } := by
  rw [ContactInput.sample, if_neg (by simp [h]), if_pos (by omega)]

/-- R13: the fourth sample in a row that differs takes the level over. -/
theorem ContactInput.sample_of_fourth {x : ContactInput} {high : Bool} (h : x.closed = high) (many : 3 ≤ x.count) :
    x.sample high = ⟨!high, 0⟩ := by
  rw [ContactInput.sample, if_neg (by simp [h]), if_neg (by omega)]

/-- A sample that leaves the debounced level moves the contact alone. -/
theorem State.sampleContact_of_kept {s : State} {c : Contact} {high : Bool} {v : ContactInput}
    (sampled : (s.sensing.contact c).sample high = v) (kept : v.closed = (s.sensing.contact c).closed) :
    s.sampleContact c high = { s with sensing := s.sensing.setContact c v } := by
  rw [State.sampleContact, sampled]
  exact if_pos kept

/-- R14: a sample that changes the debounced level passes it on. -/
theorem State.sampleContact_of_changed {s : State} {c : Contact} {high : Bool} {v : ContactInput}
    (sampled : (s.sensing.contact c).sample high = v) (changed : v.closed ≠ (s.sensing.contact c).closed) :
    s.sampleContact c high =
      State.passContact { s with sensing := s.sensing.setContact c v } c v.closed := by
  rw [State.sampleContact, sampled]
  exact if_neg changed

/-! ### A contact's samples leave the part running -/

@[simp] theorem State.fileRecord_running (s : State) (x : Draft) : (s.fileRecord x).running = s.running :=
  (State.inputChanged_recomputedTo _).running_eq

@[simp] theorem State.retireRecord_running (s : State) (r : DemandRecord) : (s.retireRecord r).running = s.running :=
  (State.inputChanged_recomputedTo _).running_eq

@[simp] theorem State.amendRecord_running (s : State) (r : DemandRecord) (f : DemandRecord → DemandRecord) :
    (s.amendRecord r f).running = s.running := by
  unfold State.amendRecord
  split
  · rfl
  · exact (State.inputChanged_recomputedTo _).running_eq

@[simp] theorem State.alignHumidity_running (s : State) : s.alignHumidity.running = s.running := by
  unfold State.alignHumidity
  split <;> simp

@[simp] theorem State.cookerClosed_running (s : State) : s.cookerClosed.running = s.running := by
  unfold State.cookerClosed
  split <;> simp

@[simp] theorem State.cookerOpened_running (s : State) : s.cookerOpened.running = s.running := by
  unfold State.cookerOpened
  split
  · split <;> simp
  · rfl

@[simp] theorem State.passContact_running (s : State) (c : Contact) (closed : Bool) :
    (s.passContact c closed).running = s.running := by
  unfold State.passContact
  split
  · exact s.cookerClosed_running
  · exact s.cookerOpened_running
  · rfl
  · exact State.alignHumidity_running _

theorem State.sampleContact_running (s : State) (c : Contact) (high : Bool) :
    (s.sampleContact c high).running = s.running := by
  unfold State.sampleContact
  dsimp only
  split
  · rfl
  · exact State.passContact_running _ c _

theorem State.samples_running (c : Contact) (samples : List Bool) (s : State) :
    (samples.foldl (State.sampleContact c) s).running = s.running := by
  induction samples generalizing s with
  | nil => rfl
  | cons high rest ih => exact (ih _).trans (s.sampleContact_running c high)

theorem exec_contactLevelChange {s : State} (h : s.running = true) (c : Contact) (samples : List Bool) :
    exec (.contactLevelChange c samples) s = .next (samples.foldl (State.sampleContact c) s) := by
  change execContactLevelChange c samples s = _
  rw [execContactLevelChange, partEvent_of_running h]

/-- R13: the samples of one event after another are the samples of one event. -/
theorem exec_contactLevelChange_append {s t : State} (h : s.running = true) {c : Contact} {samples : List Bool}
    (first : exec (.contactLevelChange c samples) s = .next t) (rest : List Bool) :
    exec (.contactLevelChange c (samples ++ rest)) s = exec (.contactLevelChange c rest) t := by
  rw [exec_contactLevelChange h] at first
  obtain rfl := Host.Outcome.next.inj first
  rw [exec_contactLevelChange h, exec_contactLevelChange ((State.samples_running c samples s).trans h),
    List.foldl_append]

/-- Settles O27: a sample by `ContactInput.sample`; the fourth that differs by what `State.passContact` does for its
contact and level. -/
theorem contactSamplesActOnTheirContact : Obligations.ContactSamplesActOnTheirContact := by
  intro c s running
  refine ⟨exec_contactLevelChange running c [],
    fun samples high t first => exec_contactLevelChange_append running first [high], ?_⟩
  intro high x moved u run
  have ran : run = .next (s.sampleContact c high) := exec_contactLevelChange running c [high]
  rw [ran]
  refine ⟨fun equal => ?equal, fun differs few => ?counted, fun differs many => ?taken⟩
  case equal => rw [State.sampleContact_of_kept (ContactInput.sample_of_equal equal) rfl]
  case counted => rw [State.sampleContact_of_kept (ContactInput.sample_of_few differs few) rfl]
  case taken =>
    have changed : s.sampleContact c high = u.passContact c !high :=
      State.sampleContact_of_changed (ContactInput.sample_of_fourth differs many)
        (by rw [show (s.sensing.contact c).closed = high from differs]; simp)
    rw [changed]
    refine ⟨fun night low => ?asserted, fun night up ok => ?released, fun cooker low => ?closed,
      fun cooker up pre post r ok place origin => ?opened⟩
    case asserted => rw [night, low]; rfl
    case released =>
      refine ⟨_, _, by rw [night, up]; rfl, State.alignHumidity_spec ok, fun i => ?_⟩
      have outdoor : u.sensing.outdoorMoisture = s.sensing.outdoorMoisture :=
        Sensing.outdoorMoisture_setContact s.sensing c _
      simp only [Humidity.source_release]
      refine ⟨fun unjudged => Source.release_of_unjudged unjudged _ _, fun v w e state last deviation => ?_⟩
      rw [Source.release_of_deferred state last deviation]
      refine ⟨fun below => Source.judgeDeferred_of_lt below _ _ _ _, fun above => ?_⟩
      rw [Source.judgeDeferred_of_ge above, outdoor]
      exact Source.rise_eq _ _ _ _ _ _
    case closed =>
      rw [cooker, low, Bool.not_false, State.passContact_cooker_closed]
      refine ⟨fun e rest absent free => ?_, fun pre post r ok place origin => ?_⟩
      · let x : Draft := ⟨.cooker, .boost, s.params.nat .cookerLevel, none, .absent, false⟩
        have filed : u.cookerClosed = u.fileRecord x := State.cookerClosed_of_absent absent
        rw [filed]
        exact ⟨_, rfl, State.fileRecord_spec u x⟩
      · exact congrArg Host.Outcome.next (State.cookerClosed_at (s := u) ok place origin)
    case opened =>
      rw [cooker, up, Bool.not_true, State.passContact_cooker_open]
      refine ⟨fun no_runon => ?_, fun runon => ?_⟩
      · rw [State.cookerOpened_of_no_runon (s := u) ok place origin no_runon]
        exact ⟨_, rfl, State.retireRecord_spec (s := u) ok.1 place⟩
      · exact congrArg Host.Outcome.next (State.cookerOpened_of_runon (s := u) ok place origin runon)

end Sys2Proof.Machine
end

