-- ==== Sys2Proof/Proofs/StationReplies.lean ====
section
/-! PROOFS. Replies on the station bus: the good reply with its readings and presses, misses, and the end of a station's
hold (R43, R44, R51, R56, R57, R59, R60, R62, R63). -/

namespace Sys2Proof.Machine

/-! ### The judgement of an exchange -/

section
variable {s : State} {n : StationId} {e : Nat} {begun : Bool}

/-- R51: a reply is in time unless it is complete after 30 ms, or after 15 ms without having begun by then. -/
theorem replyInTime_iff : replyInTime e begun = true ↔ e ≤ 15 ∨ begun = true ∧ e ≤ 30 := by simp [replyInTime]

theorem replyInTime_of_late (late : 30 < e ∨ 15 < e ∧ begun = false) : replyInTime e begun = false := by
  rw [Bool.eq_false_iff, ne_eq, replyInTime_iff]
  grind

/-- A complete reply to a running part is judged by its frame. -/
theorem exec_reportReceived_frame (running : s.running = true) (chars : List Byte) :
    exec (.reportReceived (some chars)) s = .next (s.takeFrame chars) := by
  change execReportReceived (some chars) s = _
  rw [execReportReceived, partEvent_of_running running]

theorem State.takeFrame_of_good (window : s.bus.exchange = .window n e begun) (in_time : replyInTime e begun = true)
    {chars : List Byte} {r : Report} (good : decodeReport (addressOf n) chars = some r) :
    s.takeFrame chars = (s.setExchange .idle).goodReply n r := by
  rw [State.takeFrame, window]
  simp only [if_pos in_time, State.judgeReply, good]

/-- R51 and R52: a reply that is bad or late is a miss. -/
theorem State.takeFrame_of_miss (window : s.bus.exchange = .window n e begun) {chars : List Byte}
    (missed : decodeReport (addressOf n) chars = none ∨ replyInTime e begun = false) :
    s.takeFrame chars = (s.setExchange .idle).missReply n := by
  rw [State.takeFrame, window]
  rcases missed with bad | late
  · simp only [State.judgeReply, bad, ite_self]
  · simp only [late, Bool.false_eq_true, if_false]

theorem State.judgeMiss_of_window (window : s.bus.exchange = .window n e begun) :
    s.judgeMiss = (s.setExchange .idle).missReply n := by
  rw [State.judgeMiss, window]

end

section
variable {s : State} (closed : ∀ n e b, s.bus.exchange ≠ .window n e b)
include closed

/-- R52: characters that come outside a reply window are discarded. -/
theorem State.takeFrame_of_closed (chars : List Byte) : s.takeFrame chars = s := by
  cases exchange : s.bus.exchange with
  | window n e b => exact absurd exchange (closed n e b)
  | idle | sending n frame t | void frame t => rw [State.takeFrame, exchange]

theorem State.judgeMiss_of_closed : s.judgeMiss = s := by
  cases exchange : s.bus.exchange with
  | window n e b => exact absurd exchange (closed n e b)
  | idle | sending n frame t | void frame t => rw [State.judgeMiss, exchange]

/-- R51: a character begins a reply only in a reply window. -/
theorem Exchange.beginReply_of_closed : s.bus.exchange.beginReply = s.bus.exchange := by
  cases exchange : s.bus.exchange with
  | window n e b => exact absurd exchange (closed n e b)
  | idle | sending n frame t | void frame t => rfl

theorem exec_reportReceived_of_closed (running : s.running = true) (chars : Option (List Byte)) :
    exec (.reportReceived chars) s = .next s := by
  cases chars with
  | none =>
    change execReportReceived none s = _
    rw [execReportReceived, partEvent_of_running running]
    exact congrArg (fun x => Host.Outcome.next (s.setExchange x)) (Exchange.beginReply_of_closed closed)
  | some chars => rw [exec_reportReceived_frame running, State.takeFrame_of_closed closed]

end

theorem exec_replyBadCharacter {s : State} (running : s.running = true) :
    exec .replyBadCharacter s = .next s.judgeMiss := by
  change execReplyBadCharacter s = _
  rw [execReplyBadCharacter, partEvent_of_running running]

theorem exec_replyTimeout {s : State} (running : s.running = true) : exec .replyTimeout s = .next s.judgeMiss := by
  change execReplyTimeout s = _
  rw [execReplyTimeout, partEvent_of_running running]

/-! ### The record after a good reply -/

/-- R59: a reading is VALID unless the reply reports a fault or the absent code. -/
theorem Reading.take_eq (fault : Bool) (v : Option Int) :
    Reading.take fault v = if fault = true ∨ v = none then ⟨.invalid, none⟩ else ⟨.valid, v⟩ := by
  cases fault <;> cases v <;> rfl

theorem readingNotice_iff (old new : Reading) :
    readingNotice old new = true ↔
      new.status = .invalid ∧ old.status ≠ .invalid ∨ old.status = .invalid ∧ new.status = .valid := by
  simp [readingNotice]

/-- R56: a good reply makes a served station ONLINE. -/
theorem StationState.answered_of_served {x : StationState} (served : x ≠ .unconfigured) : x.answered = .online := by
  cases x with
  | unconfigured => exact absurd rfl served
  | seeking | online | lost => rfl

theorem Station.good_of_served {x : Station} (served : x.state ≠ .unconfigured) (r : Report) (now : Nat) :
    x.good r now =
      { x with
        state := .online, kind := some r.kind, misses := 0, presses := some (r.short, r.long), lastGood := some now
        temperature := if r.fault = true ∨ r.temperature = none then ⟨.invalid, none⟩ else ⟨.valid, r.temperature⟩
        humidity := if r.fault = true ∨ r.humidity = none then ⟨.invalid, none⟩ else ⟨.valid, r.humidity⟩
        hold := 0 } := by
  rw [Station.good, StationState.answered_of_served served, Reading.take_eq, Reading.take_eq]

/-- R189: a conditional notice adds its flag, or none. -/
theorem State.notifyIf_flags (s : State) (c : Bool) (x : Notice) :
    s.notifyIf c x =
      { s with notices := { s.notices with flags := s.notices.flags ||| if c = true then x.flag else 0 } } := by
  cases c with
  | true => rfl
  | false =>
    have none_set : s.notices.flags ||| (if false = true then x.flag else 0) = s.notices.flags := BitVec.or_zero
    rw [none_set]
    rfl

/-- R56 and R59: the state after a good reply whose record becomes `y`, before its presses are taken. -/
def State.answeredWith (s : State) (n : StationId) (y : Station) : State :=
  { s with
    bus := { stations := s.bus.stations.set n y, exchange := .idle }
    notices := { s.notices with flags :=
      s.notices.flags ||| (if s.bus.stations[n].state ≠ y.state then Notice.station.flag else 0)
        ||| (if readingNotice s.bus.stations[n].temperature y.temperature
              ∨ readingNotice s.bus.stations[n].humidity y.humidity then Notice.sensor.flag else 0) } }

theorem State.goodReply_eq (s : State) (n : StationId) (r : Report) :
    (s.setExchange .idle).goodReply n r =
      (s.answeredWith n (s.bus.stations[n].good r s.clock.seconds)).takePresses n (s.bus.stations[n].pressed r) := by
  simp only [State.goodReply, State.notifyIf_flags, bne_iff_ne, Bool.or_eq_true, State.answeredWith, ne_comm]
  rfl

/-! ### The presses of a reply -/

theorem Station.pressed_short_iff (x : Station) (r : Report) :
    (x.pressed r).1 = true ↔ ∃ a b, x.presses = some (a, b) ∧ a ≠ r.short := by
  rw [Station.pressed]
  cases x.presses with
  | none => simp
  | some counts => simpa [Prod.ext_iff] using ne_comm

theorem Station.pressed_long_iff (x : Station) (r : Report) :
    (x.pressed r).2 = true ↔ ∃ a b, x.presses = some (a, b) ∧ b ≠ r.long := by
  rw [Station.pressed]
  cases x.presses with
  | none => simp
  | some counts => simpa [Prod.ext_iff] using ne_comm

section
variable (s : State) (n : StationId) {p : Bool × Bool}

theorem State.takePresses_of_neither (no_short : ¬p.1 = true) (no_long : ¬p.2 = true) : s.takePresses n p = s := by
  obtain ⟨short, long⟩ := p
  obtain rfl := Bool.eq_false_iff.mpr no_short
  obtain rfl := Bool.eq_false_iff.mpr no_long
  rfl

/-- R63: a long press cancels, with or without a short one. -/
theorem State.takePresses_of_long (long : p.2 = true) : s.takePresses n p = s.longPress n := by
  obtain ⟨short, _⟩ := p
  obtain rfl := long
  cases short <;> rfl

theorem State.takePresses_of_short (short : p.1 = true) (no_long : ¬p.2 = true) :
    s.takePresses n p = s.shortPress n := by
  obtain ⟨_, long⟩ := p
  obtain rfl := short
  obtain rfl := Bool.eq_false_iff.mpr no_long
  rfl

end

section
variable {s : State} {n : StationId} (absent : s.demand.byOrigin (.station n) .boost = none)
include absent

/-- R44: without a BOOST there is nothing to cancel. -/
theorem State.longPress_of_absent : s.longPress n = s := by
  rw [State.longPress, absent]

/-- R43: without a BOOST a short press files one. -/
theorem State.shortPress_of_absent :
    s.shortPress n =
      s.fileRecord
        ⟨.station n, .boost, s.params.nat .boostLevel, none, .minutes (s.params.nat .boostTime), false⟩ := by
  rw [State.shortPress, absent]

end

section
variable {s : State} (ok : s.demand.Ok) {pre post : List DemandRecord} {d : DemandRecord} {n : StationId}
  (place : s.demand.live = pre ++ d :: post) (origin : d.origin = .station n)
include ok place origin

/-- R44: a long press retires the station's BOOST. -/
theorem State.longPress_at : s.longPress n = s.retireRecord d := by
  rw [State.longPress, DemandTable.byOrigin_at ok place origin (by simp)]

/-- R43: a short press renews the station's BOOST where it stands. -/
theorem State.shortPress_at :
    s.shortPress n =
      { s with demand :=
        { s.demand with live := pre ++ d.restart (.minutes (s.params.nat .boostTime)) :: post } } := by
  rw [State.shortPress, DemandTable.byOrigin_at ok place origin (by simp)]
  exact (State.amendRecord_spec ok.1 place fun x => x.restart (.minutes (s.params.nat .boostTime))).1 rfl rfl

end

/-- Settles O40: the frame is taken by `State.goodReply`, whose record is `Station.good` of a served station; then
each clause is the rule of its press. -/
theorem goodRepliesAreTakenWhole : Obligations.GoodRepliesAreTakenWhole := by
  intro chars n e begun r s running window in_time served good x taken y tells u short long run
  have record : x.good r s.clock.seconds = y := Station.good_of_served served r s.clock.seconds
  have answered : s.answeredWith n y = u := by
    simp only [State.answeredWith, readingNotice_iff]
    rfl
  have ran : run = .next (u.takePresses n (x.pressed r)) := by
    rw [← answered, ← record, ← State.goodReply_eq,
      ← State.takeFrame_of_good window (replyInTime_iff.mpr in_time) good]
    exact exec_reportReceived_frame running chars
  have short_iff : (x.pressed r).1 = true ↔ short := x.pressed_short_iff r
  have long_iff : (x.pressed r).2 = true ↔ long := x.pressed_long_iff r
  rw [ran, ← short_iff, ← long_iff]
  refine ⟨fun no_short no_long => ?unpressed, fun pressed absent => ?nothing_to_cancel,
    fun pressed no_long absent => ?filed,
    fun pre post d ok place origin => ⟨fun pressed => ?cancelled, fun pressed no_long => ?renewed⟩⟩
  case unpressed => rw [State.takePresses_of_neither u n no_short no_long]
  case nothing_to_cancel => rw [State.takePresses_of_long u n pressed, State.longPress_of_absent (s := u) absent]
  case filed =>
    rw [State.takePresses_of_short u n pressed no_long, State.shortPress_of_absent (s := u) absent]
    exact ⟨_, rfl, State.fileRecord_spec u _⟩
  case cancelled =>
    rw [State.takePresses_of_long u n pressed, State.longPress_at (s := u) ok place origin]
    exact ⟨_, rfl, State.retireRecord_spec (s := u) ok.1 place⟩
  case renewed =>
    rw [State.takePresses_of_short u n pressed no_long, State.shortPress_at (s := u) ok place origin]
    rfl

/-! ### Misses and the end of a hold -/

section
variable {x : Station}

/-- R57: a miss that loses nothing is counted. -/
theorem Station.miss_of_kept (kept : x.state ≠ .online ∨ min 255 (x.misses + 1) < 3) :
    x.miss = { x with misses := min 255 (x.misses + 1) } :=
  if_neg fun ⟨online, third⟩ => kept.elim (· online) (Nat.not_lt.mpr third)

/-- R57: the third miss in a row loses an ONLINE station. -/
theorem Station.miss_of_third (online : x.state = .online) (third : 3 ≤ min 255 (x.misses + 1)) :
    x.miss = ({ x with misses := min 255 (x.misses + 1) } : Station).lose :=
  if_pos ⟨online, third⟩

end

section
variable {s : State} {n : StationId}

theorem State.missReply_of_kept
    (kept : s.bus.stations[n].state ≠ .online ∨ min 255 (s.bus.stations[n].misses + 1) < 3) :
    s.missReply n =
      s.setStation n { s.bus.stations[n] with misses := min 255 (s.bus.stations[n].misses + 1) } := by
  simp only [State.missReply, Station.miss_of_kept kept, bne_self_eq_false]
  rfl

theorem State.missReply_of_third (online : s.bus.stations[n].state = .online)
    (third : 3 ≤ min 255 (s.bus.stations[n].misses + 1)) :
    s.missReply n =
      (s.setStation n
        ({ s.bus.stations[n] with misses := min 255 (s.bus.stations[n].misses + 1) } : Station).lose).notify
          .station := by
  simp only [State.missReply, Station.miss_of_third online third, online]
  rfl

/-- R51, R57: every row that ends an open window badly is one miss of its station. -/
theorem exec_of_miss (running : s.running = true) {e : Nat} {begun : Bool}
    (window : s.bus.exchange = .window n e begun) {c : Instr}
    (ends : c = .replyBadCharacter ∨ c = .replyTimeout
      ∨ ∃ chars, c = .reportReceived (some chars)
        ∧ (decodeReport (addressOf n) chars = none ∨ 30 < e ∨ 15 < e ∧ begun = false)) :
    exec c s = .next ((s.setExchange .idle).missReply n) := by
  rcases ends with rfl | rfl | ⟨chars, rfl, missed⟩
  · rw [exec_replyBadCharacter running, State.judgeMiss_of_window window]
  · rw [exec_replyTimeout running, State.judgeMiss_of_window window]
  · rw [exec_reportReceived_frame running, State.takeFrame_of_miss window (missed.imp_right replyInTime_of_late)]

theorem exec_stationHoldExpiry_of_stopped (running : s.running = true) (stopped : s.bus.stations[n].hold = 0) :
    exec (.stationHoldExpiry n) s = .next s := by
  change execStationHoldExpiry n s = _
  rw [execStationHoldExpiry, partEvent_of_running running]
  exact congrArg Host.Outcome.next (if_pos stopped)

/-- R60: the readings that were held end with their hold. -/
theorem exec_stationHoldExpiry_of_running (running : s.running = true) (held : 0 < s.bus.stations[n].hold) :
    exec (.stationHoldExpiry n) s =
      .next ((s.setStation n
        { s.bus.stations[n] with
          hold := 0, temperature := s.bus.stations[n].temperature.expire
          humidity := s.bus.stations[n].humidity.expire }).notify .sensor) := by
  change execStationHoldExpiry n s = _
  rw [execStationHoldExpiry, partEvent_of_running running]
  exact congrArg Host.Outcome.next (if_neg held.ne')

end

/-- Settles O41: each way to miss is `State.missReply` of the window's station, by whether it is the third of an ONLINE
one; outside a window `State.takeFrame` and `State.judgeMiss` leave the state. -/
theorem missesLoseAStation : Obligations.MissesLoseAStation := by
  intro s running
  refine ⟨fun n e begun window c ends => ?open_window, fun closed => ?closed_window,
    fun n => ⟨fun stopped => ?stopped, fun held => ?ended⟩⟩
  case open_window =>
    have missed : exec c s = .next ((s.setExchange .idle).missReply n) := exec_of_miss running window ends
    rw [missed]
    refine ⟨fun counted => ?_, fun online third => ?_⟩
    · rw [State.missReply_of_kept (s := s.setExchange .idle) counted]
      rfl
    · rw [State.missReply_of_third (s := s.setExchange .idle) online third]
      rfl
  case closed_window =>
    refine ⟨?_, ?_, exec_reportReceived_of_closed closed running⟩
    · rw [exec_replyBadCharacter running, State.judgeMiss_of_closed closed]
    · rw [exec_replyTimeout running, State.judgeMiss_of_closed closed]
  case stopped => exact exec_stationHoldExpiry_of_stopped running stopped
  case ended => exact exec_stationHoldExpiry_of_running running held

end Sys2Proof.Machine
end

