-- ==== Sys2Proof/Proofs/HumidityRule.lean ====
section
/-! PROOFS. The humidity rule: the readings of its sources, the judgement of a sample in each state of its source, and
what a sample and the end of the inhibit time leave (R61, R67, R70 to R77). -/

namespace Sys2Proof.Machine

/-! ### Readings -/

theorem Reading.usable_eq_some {r : Reading} {v : Int} :
    r.usable = some v ↔ (r.status = .valid ∨ r.status = .held) ∧ r.value = some v := by
  unfold Reading.usable
  cases r.status <;> simp

theorem pairOf_eq_some {a b : Option Int} {t h : Int} : pairOf a b = some (t, h) ↔ a = some t ∧ b = some h := by
  cases a <;> cases b <;> simp [pairOf]

/-- R61: a WET station provides its readings while both count. -/
theorem Station.reading_eq_some {y : Station} {t h : Int} :
    y.reading = some (t, h) ↔ y.kind = some .wet ∧ y.temperature.usable = some t ∧ y.humidity.usable = some h := by
  unfold Station.reading
  split
  case isTrue wet => rw [pairOf_eq_some, and_iff_right wet]
  case isFalse dry => simp [dry]

/-! ### A sample in each state -/

/-- R70: the source has taken the sample `m` of a reading of temperature `t`, of deviation `e`. -/
def Source.seen (x : Source) (m t e : Int) : Source := { x with last := some (m, t), deviation := some e }

/-- R71: the first sample of a DISARMED source is its own baseline, and each moves the baseline by a quarter. -/
theorem Source.judge_of_disarmed {x : Source} (state : x.state = .disarmed) (p : Params) (outdoor : Option Nat)
    (night : Bool) (t m : Int) :
    x.judge p outdoor night t m =
      { x with
        last := some (m, t), deviation := none, arm := x.arm + 1
        baseline := some (x.baseline.getD m + symRound (m - x.baseline.getD m) 4)
        state := if p.nat .humArmSamples ≤ x.arm + 1 then .quiet else .disarmed } := by
  rw [Source.judge, state]
  rfl

theorem Source.usual_of_baseline {x : Source} {b : Int} (h : x.baseline = some b) (m : Int) : x.usual m = b := by
  rw [Source.usual, h, Option.getD_some]

section
variable {x : Source} {b : Int} (baseline : x.baseline = some b) (p : Params) (outdoor : Option Nat) (night : Bool)
  (t m : Int)
include baseline

theorem Source.judge_of_quiet (state : x.state = .quiet) :
    x.judge p outdoor night t m = (x.seen m t (m - b)).watching p outdoor night (m - b) t m := by
  simp only [Source.judge, state, Source.usual_of_baseline baseline, Source.seen]

theorem Source.judge_of_rising (state : x.state = .rising) :
    x.judge p outdoor night t m = (x.seen m t (m - b)).rising p outdoor (m - b) t m := by
  simp only [Source.judge, state, Source.usual_of_baseline baseline, Source.seen]

theorem Source.judge_of_exhausted (state : x.state = .exhausted) :
    x.judge p outdoor night t m = (x.seen m t (m - b)).settling p (m - b) m ((x.last.map (·.1)).getD m) := by
  simp only [Source.judge, state, Source.usual_of_baseline baseline, Source.seen]

theorem Source.judge_of_deferred (state : x.state = .deferred) :
    x.judge p outdoor night t m = (x.seen m t (m - b)).deferring p outdoor (m - b) t m := by
  simp only [Source.judge, state, Source.usual_of_baseline baseline, Source.seen]

end

section
variable {p : Params} {e : Int} {x : Source}

/-! #### QUIET (R72) -/

/-- R72: a rise by night waits for the release of NIGHT. -/
theorem Source.watching_of_night (above : p.get .humRise ≤ e) (ready : x.inhibit = 0) (quiet : p.get .quietNights = 1)
    (outdoor : Option Nat) (t m : Int) : x.watching p outdoor true e t m = { x with state := .deferred } := by
  rw [Source.watching, if_pos ⟨above, ready⟩, if_pos ⟨rfl, quiet⟩]

theorem Source.watching_of_day (above : p.get .humRise ≤ e) (ready : x.inhibit = 0) {night : Bool}
    (day : night = false ∨ p.get .quietNights ≠ 1) (outdoor : Option Nat) (t m : Int) :
    x.watching p outdoor night e t m = x.rise p outdoor e t m := by
  have awake : ¬(night = true ∧ p.get .quietNights = 1) := by simpa [imp_iff_not_or] using day
  rw [Source.watching, if_pos ⟨above, ready⟩, if_neg awake]

/-- R72: without a rise the baseline follows by a sixteenth. -/
theorem Source.watching_of_calm (calm : e < p.get .humRise ∨ x.inhibit ≠ 0) {b : Int} (baseline : x.baseline = some b)
    (outdoor : Option Nat) (night : Bool) (t m : Int) :
    x.watching p outdoor night e t m = { x with baseline := some (b + symRound e 16) } := by
  have no_rise : ¬(p.get .humRise ≤ e ∧ x.inhibit = 0) := by rwa [not_and_or, not_le]
  rw [Source.watching, if_neg no_rise, Source.usual_of_baseline baseline]

/-! #### RISING (R74) -/

/-- R74: back at the release the source is QUIET, and the inhibit time runs. -/
theorem Source.rising_of_released (released : e ≤ p.get .humRelease) (outdoor : Option Nat) (t m : Int) :
    x.rising p outdoor e t m =
      { x with state := .quiet, level := none, noDrying := false, inhibit := p.nat .humInhibit * 60, run := 0 } :=
  if_pos released

/-- R74: the last sample of the longest run exhausts the source. -/
theorem Source.rising_of_last (above : p.get .humRelease < e) (last : 2 * p.nat .humMaxRun ≤ x.run + 1)
    (outdoor : Option Nat) (t m : Int) :
    x.rising p outdoor e t m =
      { x with state := .exhausted, level := none, noDrying := false, settle := 0, run := x.run + 1 } := by
  rw [Source.rising, if_neg (not_le.mpr above), if_pos last]

theorem Source.rising_of_going_on (above : p.get .humRelease < e) (within : x.run + 1 < 2 * p.nat .humMaxRun)
    (outdoor : Option Nat) (t m : Int) :
    x.rising p outdoor e t m =
      { x with level := some (riseLevel p e), noDrying := noDryingAt p outdoor t m, run := x.run + 1 } := by
  rw [Source.rising, if_neg (not_le.mpr above), if_neg (not_le.mpr within)]

/-! #### EXHAUSTED (R76) -/

theorem Source.settling_of_released (released : e ≤ p.get .humRelease) (m prev : Int) :
    x.settling p e m prev = x.rebase m := if_pos released

section
variable (above : p.get .humRelease < e) {m prev : Int}
include above

/-- R76: the tenth steady sample in a row takes the sample as the baseline. -/
theorem Source.settling_of_tenth (steady : ((m - prev).natAbs : Int) ≤ p.get .humRelease) (tenth : 9 ≤ x.settle) :
    x.settling p e m prev = x.rebase m := by
  rw [Source.settling, if_neg (not_le.mpr above), if_pos steady, if_pos (by omega)]

theorem Source.settling_of_steady (steady : ((m - prev).natAbs : Int) ≤ p.get .humRelease) (few : x.settle < 9) :
    x.settling p e m prev = { x with settle := x.settle + 1 } := by
  rw [Source.settling, if_neg (not_le.mpr above), if_pos steady, if_neg (by omega)]

theorem Source.settling_of_moved (moved : p.get .humRelease < ((m - prev).natAbs : Int)) :
    x.settling p e m prev = { x with settle := 0 } := by
  rw [Source.settling, if_neg (not_le.mpr above), if_neg (not_le.mpr moved)]

end

/-! #### DEFERRED (R77) -/

theorem Source.deferring_of_released (released : e ≤ p.get .humRelease) (outdoor : Option Nat) (t m : Int) :
    x.deferring p outdoor e t m = { x with state := .quiet } := if_pos released

section
variable (above : p.get .humRelease < e) (outdoor : Option Nat) (t m : Int)
include above

theorem Source.deferring_of_quiet_nights (quiet : p.get .quietNights ≠ 0) : x.deferring p outdoor e t m = x := by
  rw [Source.deferring, if_neg (not_le.mpr above), if_neg quiet]

/-- R77: without quiet nights nothing is waited for. -/
theorem Source.deferring_of_no_quiet_nights (off : p.get .quietNights = 0) :
    x.deferring p outdoor e t m = x.judgeDeferred p outdoor e t m := by
  rw [Source.deferring, if_neg (not_le.mpr above), if_pos off]

end

end

/-! ### What a change of the HUMIDITY record can move -/

/-- R50 and R82: `t` is `s` but for the demand table and what follows it. -/
def State.DemandFollowedTo (s t : State) : Prop :=
  t = { s with demand := t.demand, resolver := t.resolver, drive := t.drive, pressure := t.pressure }

theorem State.RecomputedTo.demandFollowedTo {s t : State} {d : DemandTable}
    (h : State.RecomputedTo { s with demand := d } t) : s.DemandFollowedTo t := by
  obtain ⟨moved, -⟩ := h
  unfold State.DemandFollowedTo
  rw [moved]

theorem State.amendRecord_demandFollowedTo (s : State) (r : DemandRecord) (f : DemandRecord → DemandRecord) :
    s.DemandFollowedTo (s.amendRecord r f) := by
  unfold State.amendRecord
  split
  · rfl
  · exact (State.inputChanged_recomputedTo _).demandFollowedTo

theorem State.alignHumidity_demandFollowedTo (s : State) : s.DemandFollowedTo s.alignHumidity := by
  unfold State.alignHumidity
  split
  case h_1 => exact (s.fileRecord_spec _).demandFollowedTo
  case h_2 => exact (State.inputChanged_recomputedTo _).demandFollowedTo
  case h_3 => exact s.amendRecord_demandFollowedTo _ _
  case h_4 => rfl

/-! ### HUMIDITY_SAMPLE and INHIBIT_TIMER_EXPIRY -/

/-- R67: a source whose reading is not usable is as after a reset. -/
theorem State.sampleSource_of_no_reading {s : State} {i : SourceId} (h : s.sourceReading i = none) :
    s.sampleSource i = .afterReset := by
  rw [State.sampleSource, h]
  rfl

/-- R70: a usable reading is judged on its humidity, clamped. -/
theorem State.sampleSource_of_reading {s : State} {i : SourceId} {t h : Int}
    (reading : s.sourceReading i = some (t, h)) :
    s.sampleSource i =
      (s.humidity.source i).judge s.params s.sensing.outdoorMoisture s.sensing.night.closed t
        (min 1000 (max 0 h)) := by
  rw [State.sampleSource, reading, Source.sample, clampInt_eq_min_max (by decide)]

section
variable {s : State} (running : s.running = true) (i : SourceId)
include running

theorem exec_humiditySample :
    exec (.humiditySample i) s =
      .next (State.alignHumidity { s with humidity := s.humidity.setSource i (s.sampleSource i) }) := by
  change execHumiditySample i s = _
  rw [execHumiditySample, partEvent_of_running running]

theorem exec_inhibitTimerExpiry :
    exec (.inhibitTimerExpiry i) s =
      .next { s with humidity := s.humidity.setSource i { s.humidity.source i with inhibit := 0 } } := by
  change execInhibitTimerExpiry i s = _
  rw [execInhibitTimerExpiry, partEvent_of_running running]

end

/-- Settles O43: a usable reading is judged by the state of its source, branch by branch of the rule for that state; the
HUMIDITY record's following moves no source. -/
theorem humiditySamplesJudgeTheirSource : Obligations.HumiditySamplesJudgeTheirSource := by
  intro i s running p x put gives
  have given {y : Source} (sampled : s.sampleSource i = y) : gives y := by
    refine ⟨_, exec_humiditySample running i, ?_⟩
    rw [sampled]
    exact (put y).alignHumidity_demandFollowedTo
  refine ⟨fun t h => ⟨pairOf_eq_some, fun n => ?wet⟩, fun absent => given (State.sampleSource_of_no_reading absent),
    fun t h reading => ?judged, exec_inhibitTimerExpiry running i⟩
  case wet =>
    intro y counts
    have provided : s.sourceReading (.station n) = some (t, h) ↔ _ := Station.reading_eq_some
    rw [provided, Reading.usable_eq_some, Reading.usable_eq_some, and_assoc]
  case judged =>
    intro m
    let outdoor := s.sensing.outdoorMoisture
    let night := s.sensing.night.closed
    have judged {y : Source} (h : x.judge p outdoor night t m = y) : gives y :=
      given ((State.sampleSource_of_reading reading).trans h)
    refine ⟨fun disarmed => judged (Source.judge_of_disarmed disarmed ..), fun b baseline => ?_⟩
    intro e y top base level dull rises rebased
    have level_eq : riseLevel p e = level.toNat := riseLevel_eq p e
    have dull_eq : noDryingAt p outdoor t m = dull := rfl
    have rises_eq : y.rise p outdoor e t m = rises := by rw [Source.rise, level_eq, dull_eq]
    refine ⟨fun quiet => ?quiet, fun rising => ?rising, fun exhausted => ?exhausted, fun deferred => ?deferred⟩
    case quiet =>
      have watched {z : Source} (h : y.watching p outdoor night e t m = z) : gives z :=
        judged ((Source.judge_of_quiet baseline p outdoor night t m quiet).trans h)
      refine ⟨fun above ready => ⟨fun ⟨closed, nights⟩ => watched ?_, fun day => watched ?_⟩,
        fun calm => watched (Source.watching_of_calm (x := y) calm baseline ..)⟩
      · rw [show night = true from closed, Source.watching_of_night (x := y) above ready nights]
      · rw [Source.watching_of_day (x := y) above ready day, rises_eq]
    case rising =>
      have risen {z : Source} (h : y.rising p outdoor e t m = z) : gives z :=
        judged ((Source.judge_of_rising baseline p outdoor night t m rising).trans h)
      refine ⟨fun released => risen (Source.rising_of_released released ..),
        fun above last => risen (Source.rising_of_last (x := y) above last ..), fun above within => risen ?_⟩
      rw [Source.rising_of_going_on (x := y) above within, level_eq, dull_eq]
    case exhausted =>
      have settled {z : Source} (h : y.settling p e m ((x.last.map (·.1)).getD m) = z) : gives z :=
        judged ((Source.judge_of_exhausted baseline p outdoor night t m exhausted).trans h)
      refine ⟨fun released => settled (Source.settling_of_released released ..), fun before u last above => ?_⟩
      have previous : (x.last.map (·.1)).getD m = before := by rw [last]; rfl
      rw [previous] at settled
      exact ⟨fun steady => ⟨fun tenth => settled (Source.settling_of_tenth above steady tenth),
        fun few => settled (Source.settling_of_steady above steady few)⟩,
        fun moved => settled (Source.settling_of_moved above moved)⟩
    case deferred =>
      have waited {z : Source} (h : y.deferring p outdoor e t m = z) : gives z :=
        judged ((Source.judge_of_deferred baseline p outdoor night t m deferred).trans h)
      refine ⟨fun released => waited (Source.deferring_of_released released ..),
        fun above nights => waited (Source.deferring_of_quiet_nights above _ _ _ nights), fun above off => ?_⟩
      have asked := Source.deferring_of_no_quiet_nights (x := y) above outdoor t m off
      exact ⟨fun rise => waited (asked.trans ((Source.judgeDeferred_of_ge rise ..).trans rises_eq)),
        fun below => waited (asked.trans (Source.judgeDeferred_of_lt below ..))⟩

end Sys2Proof.Machine
end

