-- ==== Sys2Proof/Proofs/Modes.lean ====
section
/-! PROOFS. The unit mode: what SET_MODE names and answers, what leaving COMMISSION and entering STANDBY do in the blocks,
and the two rows that change the mode (R100 to R103, R135, R164). -/

namespace Sys2Proof.Machine

/-! ### What SET_MODE names and answers -/

/-- R101: no mode but RUN, STANDBY and COMMISSION is named by a byte. -/
theorem requestedMode_of_refused {mode : Byte} (h : mode.toNat = 0 ∨ 4 ≤ mode.toNat) : requestedMode mode = none := by
  unfold requestedMode memberOf
  rcases h with zero | big
  · rw [zero]; rfl
  · rw [List.getElem?_eq_none (show Mode.members.length ≤ mode.toNat from big)]

/-- R198: the three modes by their codes. -/
theorem requestedMode_of_named {mode : Byte} {m : Mode}
    (h : mode.toNat = 1 ∧ m = .run ∨ mode.toNat = 2 ∧ m = .standby ∨ mode.toNat = 3 ∧ m = .commission) :
    requestedMode mode = some m := by
  unfold requestedMode memberOf
  rcases h with ⟨code, rfl⟩ | ⟨code, rfl⟩ | ⟨code, rfl⟩ <;> rw [code] <;> rfl

/-- R198: the byte of a mode. -/
theorem enumByte_mode (m : Mode) :
    enumByte Mode.members m = [match m with | .startup => 0 | .run => 1 | .standby => 2 | .commission => 3] := by
  cases m <;> rfl

/-- R200: the response gives the mode, the pending mode and the stored mode. -/
theorem Resolver.modeReport_eq (r : Resolver) :
    r.modeReport =
      [r.mode, r.pending, r.stored].map fun m =>
        match m with | .startup => 0 | .run => 1 | .standby => 2 | .commission => 3 := by
  rw [Resolver.modeReport, enumByte_mode, enumByte_mode, enumByte_mode]
  rfl

/-! ### The source map when COMMISSION is left -/

/-- R103: leaving COMMISSION moves the source map alone. -/
theorem State.leaveCommission_eq (s : State) :
    s.leaveCommission =
      { s with
        drive :=
          if s.resolver.mode = .commission then
            { s.drive with
              sup := { s.drive.sup with source := .auto }, ext := { s.drive.ext with source := .auto }
              preheater := { s.drive.preheater with source := .auto } }
          else s.drive } := by
  unfold State.leaveCommission
  split <;> rfl

/-! ### The guard's entry into CLEAR -/

/-- R156: a guard in CLEAR that is not in fallback orders nothing. -/
theorem Frost.orders_of_clear {g : Frost} (clear : g.stage = .clear) (normal : g.fallback = false) (p : Params)
    (oa : Option Int) : g.orders p oa = (0, 0) := by
  simp [Frost.orders, clear, normal, Stage.limits]

/-- R155: what an entry into CLEAR out of fallback leaves of the guard. -/
theorem Frost.enter_clear_of_normal {g : Frost} (normal : g.fallback = false) (p : Params) (oa : Option Int)
    (reason : Reason) :
    g.enter p oa .clear reason =
      { g with
        stage := .clear, reason, hold := 0, saturation := 0, ice := 0, stopTimer := 0, reduction := 0, preheat := 0
        counter := 0, windows := .closed, gateResult := none, failed := 0, unjudged := false } := by
  simp [Frost.enter, Frost.formOrders, Frost.orders_of_clear, Frost.stopCycle, Frost.clearCounts, normal]

/-- R164: the guard stands down to CLEAR with its counts, orders and cycle ended; the reason stays where it was in CLEAR. -/
theorem Frost.standDown_eq (p : Params) (oa : Option Int) (g : Frost) :
    g.standDown p oa =
      { g with
        stage := .clear, reason := if g.stage = .clear then g.reason else .mode, fallback := false
        hold := 0, saturation := 0, ice := 0, stopTimer := 0, reduction := 0, preheat := 0
        counter := 0, windows := .closed, gateResult := none, failed := 0, unjudged := false } := by
  unfold Frost.standDown
  split
  case isTrue clear => simp [Frost.stopCycle, Frost.clearCounts, ← clear]
  case isFalse other => rw [Frost.enter_clear_of_normal rfl]

/-- R138: in CLEAR the FROST timer runs while the baseline is being learnt. -/
theorem frostPeriod_clear (p : Params) (pn0 : Option Nat) :
    frostPeriod p pn0.isSome .clear = if pn0 = none then some (p.nat .filterPeriod * 60000) else none := by
  cases pn0 <;> rfl

/-- R138 and R164: the guard's entry into STANDBY, with FROST and the FROST timer where the stage was another. -/
theorem State.standDownFrost_eq (s : State) :
    s.standDownFrost =
      { s with
        frost := s.frost.standDown s.params s.frostOa
        pressure := { s.pressure with
          frostTimer :=
            if s.frost.stage = .clear then s.pressure.frostTimer
            else if s.frost.baseline.pn0 = none then some (s.params.nat .filterPeriod * 60000) else none }
        notices := { s.notices with
          flags := s.notices.flags ||| (if s.frost.stage = .clear then 0 else Notice.frost.flag) } } := by
  unfold State.standDownFrost
  split
  case isTrue clear => simp
  case isFalse other =>
    simp only [State.restartFrostTimer, State.notify, Notices.set, Frost.standDown_eq, frostPeriod_clear, if_neg other]

/-! ### The LINK request at the entry into STANDBY -/

/-- R135: the withdrawal of the LINK request ends its measurement. -/
theorem Pressure.withdraw_link (p : Pressure) :
    p.withdraw .link =
      { p with
        link := none
        phase := if ∃ f ∈ p.phase.flight, f.requester = .link then .free else p.phase } := by
  unfold Pressure.withdraw
  cases p.phase.flight with
  | none => simp [Pressure.setRequest]
  | some f => by_cases own : f.requester = .link <;> simp [Pressure.setRequest, own]

/-- R135: an outstanding LINK request is withdrawn with its record ABORTED and MEASURE set. -/
theorem State.standDownLink_eq (s : State) :
    s.standDownLink =
      { s with
        pressure := { s.pressure with
          link := none
          record :=
            if s.pressure.link.isSome = true then
              { s.pressure.record with state := .aborted, cause := some .standby }
            else s.pressure.record
          phase :=
            if s.pressure.link.isSome = true ∧ ∃ f ∈ s.pressure.phase.flight, f.requester = .link then .free
            else s.pressure.phase }
        notices := { s.notices with
          flags := s.notices.flags ||| (if s.pressure.link.isSome = true then Notice.measure.flag else 0) } } := by
  unfold State.standDownLink
  split
  case isTrue outstanding =>
    simp only [State.abortLink, Pressure.withdraw_link, State.notify, Notices.set, outstanding, true_and]
  case isFalse absent =>
    have empty : s.pressure.link = none := by simpa using absent
    rw [if_neg fun both => absent both.1, ← empty]
    simp

/-! ### The LINK record where no LINK request is outstanding -/

@[simp] theorem Pressure.setRequest_record (p : Pressure) (x : Requester) (v : Option Request) :
    (p.setRequest x v).record = p.record := by cases x <;> rfl

/-- R134: an abort leaves the LINK record. -/
@[simp] theorem Pressure.abort_record (p : Pressure) : p.abort.record = p.record := by
  unfold Pressure.abort
  split
  · exact Pressure.setRequest_record ..
  · rfl

@[simp] theorem State.judgeGates_record (s : State) : s.judgeGates.pressure.record = s.pressure.record := by
  unfold State.judgeGates
  split
  · split
    · rfl
    · exact Pressure.abort_record _
  · rfl

/-- R139: a grant to another requester leaves the LINK record. -/
theorem State.grant_record {s : State} (h : s.pressure.link = none) : s.grant.pressure.record = s.pressure.record := by
  unfold State.grant
  split
  case h_1 r _ _ =>
    split
    case h_1 q granted =>
      have other : r ≠ .link := by
        rintro rfl
        cases h.symm.trans granted
      exact if_neg other
    case h_2 => rfl
  case h_2 => rfl

/-- R133 and R134: the judging of the gates leaves an empty LINK slot empty. -/
theorem State.judgeGates_link {s : State} (h : s.pressure.link = none) : s.judgeGates.pressure.link = none := by
  obtain ⟨q, judged, -, kept⟩ := s.judgeGates_spec
  have slot : q.link.isSome = s.pressure.link.isSome := kept .link
  rw [judged]
  simpa [h] using slot

/-- R133, R134 and R139: without a LINK request, what follows a change of an input leaves the LINK record. -/
theorem State.inputChanged_record {s : State} (h : s.pressure.link = none) :
    s.inputChanged.pressure.record = s.pressure.record := by
  have link : s.recompute.pressure.link = none := by rw [State.recompute_eq]; exact h
  calc s.inputChanged.pressure.record
      = s.recompute.judgeGates.pressure.record := State.grant_record (State.judgeGates_link link)
    _ = s.recompute.pressure.record := State.judgeGates_record _
    _ = s.pressure.record := by rw [State.recompute_eq]

/-! ### The change of the mode -/

theorem State.enterStandby_of_other {m : Mode} (h : m ≠ .standby) (s : State) : s.enterStandby m = s := if_neg h

theorem State.enterStandby_standby (s : State) : s.enterStandby .standby = s.standDownFrost.standDownLink := rfl

/-- R102, R135 and R164: the entry into STANDBY leaves the modes and the store. -/
theorem State.enterStandby_stored (s : State) (m : Mode) :
    (s.enterStandby m).resolver = s.resolver ∧ (s.enterStandby m).store = s.store := by
  by_cases standby : m = .standby
  · rw [standby, State.enterStandby_standby, State.standDownLink_eq, State.standDownFrost_eq]
    exact ⟨rfl, rfl⟩
  · rw [State.enterStandby_of_other standby]
    exact ⟨rfl, rfl⟩

/-- A recompute leaves the stored mode and the store. -/
theorem State.RecomputedTo.stored_eq {s t : State} (h : s.RecomputedTo t) :
    t.resolver.stored = s.resolver.stored ∧ t.store = s.store :=
  ⟨(congrArg (fun u : State => u.resolver.stored) h.1).trans rfl, (congrArg State.store h.1).trans rfl⟩

/-- R101: the entry into a mode leaves the stored mode and the store. -/
theorem State.enterMode_stored (s : State) (m : Mode) :
    (s.enterMode m).resolver.stored = s.resolver.stored ∧ (s.enterMode m).store = s.store := by
  let u : State := { s.leaveCommission with resolver := { s.resolver with mode := m, pending := m } }
  obtain ⟨recomputed_stored, recomputed_store⟩ := (u.enterStandby m).inputChanged_recomputedTo.stored_eq
  obtain ⟨modes, store⟩ := u.enterStandby_stored m
  have left : s.leaveCommission.store = s.store := (congrArg State.store s.leaveCommission_eq).trans rfl
  exact ⟨recomputed_stored.trans ((congrArg Resolver.stored modes).trans rfl), recomputed_store.trans (store.trans left)⟩

/-- R101: what SET_MODE does to the mode leaves the stored mode and the store. -/
theorem State.takeMode_stored (s : State) (m : Mode) :
    (s.takeMode m).resolver.stored = s.resolver.stored ∧ (s.takeMode m).store = s.store := by
  unfold State.takeMode
  split
  · exact ⟨rfl, rfl⟩
  · split
    · exact ⟨rfl, rfl⟩
    · exact s.enterMode_stored m

theorem exec_setMode_of_refused {s : State} (h : s.answering = true) {mode : Byte} (refused : requestedMode mode = none) :
    exec (.setMode mode) s = .next (s.respond .badValue []) := by
  change execSetMode mode s = _
  rw [execSetMode, hostCommand_of_answering h, refused]
  rfl

theorem exec_setMode_of_named {s : State} (h : s.answering = true) {mode : Byte} {m : Mode}
    (named : requestedMode mode = some m) :
    exec (.setMode mode) s =
      .next (((s.takeMode m).storeMode m).respond .ok ((s.takeMode m).storeMode m).resolver.modeReport) := by
  change execSetMode mode s = _
  rw [execSetMode, hostCommand_of_answering h, named]

theorem exec_startupEnd {s : State} (h : s.running = true) :
    exec .startupEnd s = .next (if s.resolver.mode = .startup then s.enterMode s.resolver.pending else s) := by
  change execStartupEnd s = _
  rw [execStartupEnd, partEvent_of_running h]

/-- Settles O47: SET_MODE by the mode it names and the end of start-up by the mode it ends, each over what the entry into a
mode does: the recompute of the state that `leaveCommission` and, into STANDBY, the two stand-downs leave. -/
theorem modesChange : Obligations.ModesChange := by
  intro s stores report auto modes enters
  have entered (m : Mode) : enters m (s.enterMode m) := by
    refine ⟨fun other => ?other, fun standby => ?standby⟩
    case other =>
      rw [State.enterMode, State.enterStandby_of_other other, State.leaveCommission_eq]
      exact State.inputChanged_recomputedTo _
    case standby =>
      subst standby
      intro clear link g record p n
      let u : State := { s with resolver := modes .standby, drive := auto, frost := g, pressure := p, notices := n }
      have before :
          State.enterStandby { s.leaveCommission with resolver := modes .standby } .standby = u := by
        rw [State.enterStandby_standby, State.standDownLink_eq, State.standDownFrost_eq, State.leaveCommission_eq,
          Frost.standDown_eq]
      have after : s.enterMode .standby = u.inputChanged := congrArg State.inputChanged before
      have withdrawn : u.pressure.link = none := rfl
      rw [after]
      exact ⟨State.inputChanged_recomputedTo u, State.inputChanged_record withdrawn⟩
  refine ⟨fun running => ?ended, fun answering => ⟨fun mode refused => ?refused, fun mode m named => ?named⟩⟩
  case ended =>
    rw [exec_startupEnd running]
    refine ⟨fun startup => ⟨_, ?_, entered _⟩, fun past => ?_⟩
    · rw [if_pos startup]
    · rw [if_neg past]
  case refused => exact exec_setMode_of_refused answering (requestedMode_of_refused refused)
  case named =>
    obtain ⟨stored, store⟩ := s.takeMode_stored m
    have reported (r : Resolver) : r.modeReport = report r := r.modeReport_eq
    have kept : (s.takeMode m).storeMode m = stores m (s.takeMode m) := by
      simp only [State.storeMode, State.changed, stored, store, stores]
    refine ⟨s.takeMode m, ?_, fun startup => ?_, fun same => ?_, fun past differs => ?_⟩
    · rw [exec_setMode_of_named answering (requestedMode_of_named named), kept, reported]
    · rw [State.takeMode, if_pos startup]
    · have past : s.resolver.mode ≠ .startup := by
        rcases named with ⟨-, rfl⟩ | ⟨-, rfl⟩ | ⟨-, rfl⟩ <;> rw [same] <;> decide
      rw [State.takeMode, if_neg past, if_pos same]
    · rw [State.takeMode, if_neg past, if_neg differs]
      exact entered m

end Sys2Proof.Machine
end

