-- ==== Sys2Proof/Proofs/FanDrive.lean ====
section
/-! PROOFS. The fan drive: what a calibration table gives between two of its points (R110, R112), and the ends of a
rest, of a fault episode and of a lockout (R119 to R121). -/

namespace Sys2Proof.Machine

/-! ### Interpolation -/

/-- R110 and R112: a value read between two points lies between theirs: the share of the way is at most the
whole. -/
theorem interpolated_mem_Icc {x lo hi y y' : Nat} (above : lo ≤ x) (below : x < hi) (rises : y ≤ y') :
    y ≤ y + roundDiv ((x - lo) * (y' - y)) (hi - lo) ∧ y + roundDiv ((x - lo) * (y' - y)) (hi - lo) ≤ y' := by
  have width : 0 < hi - lo := by omega
  have whole : roundDiv ((x - lo) * (y' - y)) (hi - lo) ≤ y' - y := by
    obtain ⟨upper, -⟩ := roundDiv_bounds ((x - lo) * (y' - y)) width
    have share : (x - lo) * (y' - y) ≤ (hi - lo) * (y' - y) := Nat.mul_le_mul_right _ (by omega)
    refine Nat.lt_succ_iff.mp (Nat.lt_of_mul_lt_mul_left (a := 2 * (hi - lo)) ?_)
    calc 2 * (hi - lo) * roundDiv ((x - lo) * (y' - y)) (hi - lo)
        ≤ 2 * ((x - lo) * (y' - y)) + (hi - lo) := upper
      _ ≤ 2 * ((hi - lo) * (y' - y)) + (hi - lo) := by omega
      _ < 2 * ((hi - lo) * (y' - y)) + 2 * (hi - lo) := by omega
      _ = 2 * (hi - lo) * (y' - y).succ := by rw [Nat.mul_succ, Nat.mul_assoc]
  omega

/-- R110: where the flows increase, the walk over the points ends at the interval that holds the flow. -/
theorem interpolateDuty_of_interval {points : List CalPoint} (rises : points.Pairwise fun a b => a.flow < b.flow)
    {q i : Nat} (inside : i + 1 < points.length) (above : points[i].flow ≤ q) (below : q < points[i + 1].flow) :
    interpolateDuty points q =
      points[i].duty + roundDiv ((q - points[i].flow) * (points[i + 1].duty - points[i].duty))
        (points[i + 1].flow - points[i].flow) := by
  induction points generalizing i with
  | nil => exact absurd inside (Nat.not_lt_zero _)
  | cons a rest ih =>
    match rest, i with
    | [], _ => simp at inside
    | b :: rest, 0 => exact if_pos below
    | b :: rest, i + 1 =>
      have later := rises.of_cons
      have passed : b.flow ≤ q := by
        cases i with
        | zero => exact above
        | succ j => exact (List.rel_of_pairwise_cons later (List.getElem_mem _)).le.trans above
      rw [interpolateDuty, if_neg (not_lt.mpr passed)]
      exact ih later (Nat.lt_of_succ_lt_succ inside) above below

/-- A point with duty and flow exchanged, under which the two lookups are one. -/
def CalPoint.swap (a : CalPoint) : CalPoint := ⟨a.flow, a.duty⟩

theorem interpolateFlow_eq_swap (points : List CalPoint) (c : Nat) :
    interpolateFlow points c = interpolateDuty (points.map CalPoint.swap) c := by
  induction points with
  | nil => rfl
  | cons a rest ih =>
    cases rest with
    | nil => rfl
    | cons b rest =>
      rw [interpolateFlow, ih]
      rfl

/-- R112: where the duties increase, the walk over the points ends at the interval that holds the duty. -/
theorem interpolateFlow_of_interval {points : List CalPoint} (rises : points.Pairwise fun a b => a.duty < b.duty)
    {c i : Nat} (inside : i + 1 < points.length) (above : points[i].duty ≤ c) (below : c < points[i + 1].duty) :
    interpolateFlow points c =
      points[i].flow + roundDiv ((c - points[i].duty) * (points[i + 1].flow - points[i].flow))
        (points[i + 1].duty - points[i].duty) := by
  have swapped := interpolateDuty_of_interval (points := points.map CalPoint.swap) (q := c) (i := i)
    (List.pairwise_map.mpr rises) (by simpa using inside)
    (by simpa [CalPoint.swap] using above) (by simpa [CalPoint.swap] using below)
  simpa only [List.getElem_map, CalPoint.swap, ← interpolateFlow_eq_swap] using swapped

/-! ### A well-formed table -/

section
variable {t : CalTable}

/-- R106: a later point lies higher in duty and in flow. -/
theorem CalTable.Ok.point_lt (ok : CalTable.Ok t) {i j : Nat} (lt : i < j) (h : j < 6) :
    t[i].duty < t[j].duty ∧ t[i].flow < t[j].flow := by
  have rises := List.pairwise_iff_getElem.mp ok.1 i j (by rw [Vector.length_toList]; omega) (by simpa using h) lt
  simpa only [Vector.getElem_toList] using rises

theorem CalTable.Ok.point_le (ok : CalTable.Ok t) {i j : Nat} (le : i ≤ j) (h : j < 6) :
    t[i].duty ≤ t[j].duty ∧ t[i].flow ≤ t[j].flow := by
  rcases le.eq_or_lt with rfl | lt
  · exact ⟨le_rfl, le_rfl⟩
  · exact ⟨(ok.point_lt lt h).1.le, (ok.point_lt lt h).2.le⟩

/-- R106: no point has a duty or a flow of 0. -/
theorem CalTable.Ok.point_pos (ok : CalTable.Ok t) {i : Nat} (h : i < 6) : 0 < t[i].duty ∧ 0 < t[i].flow := by
  obtain ⟨duty, -, flow, -⟩ := ok.2 t[i] (by simp)
  exact ⟨duty, flow⟩

/-! ### The duty for a flow -/

/-- R110: above 0 and up to the first flow, the first duty. -/
theorem CalTable.dutyFor_of_le_first {q : Nat} (pos : 0 < q) (h : q ≤ t[0].flow) :
    CalTable.dutyFor t q = t[0].duty := by
  rw [CalTable.dutyFor, if_neg pos.ne', if_pos h]

/-- R110: from the last flow up, the last duty. -/
theorem CalTable.dutyFor_of_last_le (ok : CalTable.Ok t) {q : Nat} (h : t[5].flow ≤ q) :
    CalTable.dutyFor t q = t[5].duty := by
  have first_lt_last := (ok.point_lt (i := 0) (j := 5) (by decide) (by decide)).2
  rw [CalTable.dutyFor, if_neg (by omega), if_neg (by omega), if_pos h]

/-- R110: between two points, the interpolation between their duties. -/
theorem CalTable.dutyFor_of_interval (ok : CalTable.Ok t) {q i : Nat} (inside : i < 5) (past : t[0].flow < q)
    (above : t[i].flow ≤ q) (below : q < t[i + 1].flow) :
    CalTable.dutyFor t q =
      t[i].duty + roundDiv ((q - t[i].flow) * (t[i + 1].duty - t[i].duty)) (t[i + 1].flow - t[i].flow) := by
  have last := (ok.point_le (i := i + 1) (j := 5) (by omega) (by decide)).2
  have walked := interpolateDuty_of_interval (points := t.toList) (q := q) (i := i) (ok.1.imp And.right)
    (by rw [Vector.length_toList]; omega) (by simpa using above) (by simpa using below)
  rw [CalTable.dutyFor, if_neg (by omega), if_neg (by omega), if_neg (by omega), walked]
  simp only [Vector.getElem_toList]

/-! ### The flow for a duty -/

/-- R112: above 0 and below the first duty, the duty's share of the first flow. -/
theorem CalTable.flowAt_of_lt_first {c : Nat} (pos : 0 < c) (h : c < t[0].duty) :
    CalTable.flowAt t c = roundDiv (t[0].flow * c) t[0].duty := by
  rw [CalTable.flowAt, if_neg pos.ne', if_pos h]

/-- R112: from the last duty up, the last flow. -/
theorem CalTable.flowAt_of_last_le (ok : CalTable.Ok t) {c : Nat} (h : t[5].duty ≤ c) :
    CalTable.flowAt t c = t[5].flow := by
  have first_lt_last := (ok.point_lt (i := 0) (j := 5) (by decide) (by decide)).1
  rw [CalTable.flowAt, if_neg (by omega), if_neg (by omega), if_pos h]

/-- R112: between two points, the interpolation between their flows. -/
theorem CalTable.flowAt_of_interval (ok : CalTable.Ok t) {c i : Nat} (inside : i < 5) (above : t[i].duty ≤ c)
    (below : c < t[i + 1].duty) :
    CalTable.flowAt t c =
      t[i].flow + roundDiv ((c - t[i].duty) * (t[i + 1].flow - t[i].flow)) (t[i + 1].duty - t[i].duty) := by
  have first := (ok.point_le (i := 0) (j := i) (by omega) (by omega)).1
  have first_pos := (ok.point_pos (i := 0) (by decide)).1
  have last := (ok.point_le (i := i + 1) (j := 5) (by omega) (by decide)).1
  have walked := interpolateFlow_of_interval (points := t.toList) (c := c) (i := i) (ok.1.imp And.left)
    (by rw [Vector.length_toList]; omega) (by simpa using above) (by simpa using below)
  rw [CalTable.flowAt, if_neg (by omega), if_neg (by omega), if_neg (by omega), walked]
  simp only [Vector.getElem_toList]

end

/-- Settles O31: each case of the two lookups by its lemma; between two points the walk over the points ends at their
interval, and the interpolation lies between their values. -/
theorem calibrationLookups : Obligations.CalibrationLookups := by
  intro t ok
  refine ⟨⟨rfl, rfl⟩, fun _ => CalTable.dutyFor_of_le_first, fun _ => CalTable.dutyFor_of_last_le ok, ?duty,
    fun _ => CalTable.flowAt_of_lt_first, fun _ => CalTable.flowAt_of_last_le ok, ?flow⟩
  case duty =>
    intro i q past _ above below
    have read := CalTable.dutyFor_of_interval ok i.isLt past above below
    refine ⟨read, ?_⟩
    rw [read]
    exact interpolated_mem_Icc above below (ok.point_lt (Nat.lt_succ_self _) (by omega)).1.le
  case flow =>
    intro i c above below
    have read := CalTable.flowAt_of_interval ok i.isLt above below
    refine ⟨read, ?_⟩
    rw [read]
    exact interpolated_mem_Icc above below (ok.point_lt (Nat.lt_succ_self _) (by omega)).2.le

/-! ### Rests, clean runs and lockouts -/

/-- R116: a move that keeps the commanded duty is that fan's new items alone. -/
theorem State.moveFan_of_same_duty {s : State} {f : FanId} {x : Fan} (h : x.commanded = (s.drive.fan f).commanded) :
    s.moveFan f x = { s with drive := s.drive.setFan f x } := by
  rw [State.moveFan, Drive.moveFan_same h]

section
variable {s : State} {f : FanId} {x : Fan} (fan_eq : s.drive.fan f = x)
include fan_eq

theorem exec_restEnd_of_faultRest (running : s.running = true) (rests : x.state = .faultRest) :
    exec (.restEnd f) s =
      .next (State.inputChanged
        { s with drive := s.drive.setFan f { x with state := .idle, attempts := x.attempts + 1, rest := 0 } }) := by
  subst fan_eq
  change execRestEnd f s = _
  rw [execRestEnd, partEvent_of_running running, if_pos rests, State.moveFan_of_same_duty]
  rfl

theorem exec_restEnd_of_other (running : s.running = true) (other : x.state ≠ .faultRest) :
    exec (.restEnd f) s = .next s := by
  subst fan_eq
  change execRestEnd f s = _
  rw [execRestEnd, partEvent_of_running running, if_neg other]

theorem exec_cleanRunEnd_of_running (running : s.running = true) (turns : x.state = .running) :
    exec (.cleanRunEnd f) s =
      .next { s with drive := s.drive.setFan f { x with cleanRun := 600, attempts := 0 } } := by
  subst fan_eq
  change execCleanRunEnd f s = _
  rw [execCleanRunEnd, partEvent_of_running running, if_pos turns, State.moveFan_of_same_duty]
  rfl

theorem exec_cleanRunEnd_of_other (running : s.running = true) (other : x.state ≠ .running) :
    exec (.cleanRunEnd f) s = .next s := by
  subst fan_eq
  change execCleanRunEnd f s = _
  rw [execCleanRunEnd, partEvent_of_running running, if_neg other]

/-- R121: the command makes a LOCKED fan IDLE with its counts at 0, which goes to the resolver. -/
theorem exec_clearFanFault_of_locked (answering : s.answering = true) {fan : Byte}
    (named : memberOf fanMembers fan = some f) (locked : x.state = .locked) :
    exec (.clearFanFault fan) s =
      .next ((State.inputChanged
        { s with drive :=
          s.drive.setFan f { x with state := .idle, attempts := 0, stall := 0, cleanRun := 0 } }).respond .ok []) := by
  subst fan_eq
  change execClearFanFault fan s = _
  rw [execClearFanFault, hostCommand_of_answering answering, named]
  dsimp only
  rw [if_pos locked, State.moveFan_of_same_duty, Fan.cleared]
  rfl

theorem exec_clearFanFault_of_other (answering : s.answering = true) {fan : Byte}
    (named : memberOf fanMembers fan = some f) (other : x.state ≠ .locked) :
    exec (.clearFanFault fan) s = .next (s.respond .ok []) := by
  subst fan_eq
  change execClearFanFault fan s = _
  rw [execClearFanFault, hostCommand_of_answering answering, named]
  dsimp only
  rw [if_neg other]

end

/-- R121 and R184: a byte that names no fan is refused. -/
theorem exec_clearFanFault_of_refused {s : State} (answering : s.answering = true) {fan : Byte}
    (refused : memberOf fanMembers fan = none) :
    exec (.clearFanFault fan) s = .next (s.respond .badValue []) := by
  change execClearFanFault fan s = _
  rw [execClearFanFault, hostCommand_of_answering answering, refused]
  rfl

/-- Settles O33: each row by the state of its fan; no move here changes a commanded duty, so that the fan's new items
and the recompute are all that follows. -/
theorem restsAndLockoutsEnd : Obligations.RestsAndLockoutsEnd := by
  intro f s x
  have fan_eq : s.drive.fan f = x := rfl
  clear_value x
  refine ⟨fun running => ⟨fun rests => ?rested, exec_restEnd_of_other fan_eq running,
      exec_cleanRunEnd_of_running fan_eq running, exec_cleanRunEnd_of_other fan_eq running⟩,
    fun answering fan => ⟨fun big => ?refused, fun named locked => ?cleared,
      exec_clearFanFault_of_other fan_eq answering⟩⟩
  case rested => exact ⟨_, exec_restEnd_of_faultRest fan_eq running rests, State.inputChanged_recomputedTo _⟩
  case refused => exact exec_clearFanFault_of_refused answering (List.getElem?_eq_none big)
  case cleared =>
    exact ⟨_, exec_clearFanFault_of_locked fan_eq answering named locked, State.inputChanged_recomputedTo _⟩

end Sys2Proof.Machine
end

