-- ==== Sys2Proof/Proofs/FrostGuard.lean ====
section
/-! PROOFS. The frost guard: what a move of the guard hands on to the part, the orders, the entry into a stage, and the
evaluation in FALLBACK (R149, R155, R156, R158, R162, R163). -/

namespace Sys2Proof.Machine

/-! ### What a move of the guard hands on -/

/-- R133: the filing of the FROST request, which asks for EXCH. -/
theorem Pressure.file_frost (p : Pressure) :
    p.file .frost .exch none = { p with frost := if p.frost = none then some ⟨.exch, none, false⟩ else p.frost } := by
  obtain ⟨_, _, _, request, _⟩ := p
  cases request <;> rfl

/-- R138, R155 and R158: the part after the guard's move to `g`, before the recompute and the judging of the gates. -/
def State.guardMoved (s : State) (g : Frost) (opens : Bool) : State :=
  { s with
    frost := g
    notices := if g.stage ≠ s.frost.stage then s.notices.set .frost else s.notices
    pressure :=
      { s.pressure with
        frostTimer :=
          if g.stage ≠ s.frost.stage then frostPeriod s.params g.baseline.pn0.isSome g.stage else s.pressure.frostTimer
        frost := if opens = true ∧ s.pressure.frost = none then some ⟨.exch, none, false⟩ else s.pressure.frost } }

/-- R87: a guard differs from `old` in its stage or in what the resolver reads of it. -/
def Frost.differs (g old : Frost) : Bool :=
  g.stage != old.stage || g.reduction != old.reduction || g.preheat != old.preheat
    || g.windows.reduce != old.windows.reduce

theorem Frost.differs_iff {g old : Frost} :
    g.differs old = true ↔
      g.stage ≠ old.stage ∨ g.reduction ≠ old.reduction ∨ g.preheat ≠ old.preheat
        ∨ g.windows.reduce ≠ old.windows.reduce := by
  simp only [Frost.differs, Bool.or_eq_true, bne_iff_ne, or_assoc]

/-- R138 and R155: the notice and the timer of a change of stage. -/
theorem State.guardMoved_staged (s : State) (g : Frost) :
    s.guardMoved g false =
      if g.stage != s.frost.stage then ({ s with frost := g }.notify .frost).restartFrostTimer
      else { s with frost := g } := by
  by_cases same : g.stage = s.frost.stage
  · simp [State.guardMoved, same]
  · simp [State.guardMoved, State.restartFrostTimer, State.notify, same]

/-- R158: the request that the opening of the GATE window files. -/
theorem State.guardMoved_opens (s : State) (g : Frost) (opens : Bool) :
    s.guardMoved g opens =
      if opens then
        { s.guardMoved g false with pressure := (s.guardMoved g false).pressure.file .frost .exch none }
      else s.guardMoved g false := by
  cases opens
  · rfl
  · rw [Pressure.file_frost]
    simp [State.guardMoved]

/-- R87 and R134: a change for the resolver recomputes before the gates are judged. -/
theorem State.handFrost_eq (s : State) (g : Frost) (opens : Bool) :
    { s with frost := g }.handFrost s.frost opens =
      if g.differs s.frost then (s.guardMoved g opens).inputChanged else (s.guardMoved g opens).channelTail := by
  rw [State.guardMoved_opens, State.guardMoved_staged]
  exact apply_ite State.channelTail _ _ _

/-- R87, R138, R155 and R158: what the guard's move to `g` hands on, in full. -/
theorem State.handFrost_handedTo (s : State) (g : Frost) (opens : Bool) :
    s.FrostHandedTo g opens ({ s with frost := g }.handFrost s.frost opens) := by
  unfold State.FrostHandedTo
  intro staged period u moves
  have timer : frostPeriod s.params g.baseline.pn0.isSome g.stage = period := by
    simp only [period]
    cases g.stage <;> cases g.baseline.pn0 <;> rfl
  have moved : s.guardMoved g opens = u := by
    rw [State.guardMoved, timer]
  rw [State.handFrost_eq, moved]
  refine ⟨fun h => ?_, fun h => ?_⟩
  · rw [if_pos (Frost.differs_iff.mpr h)]
    exact State.inputChanged_recomputedTo u
  · rw [if_neg fun d => h (Frost.differs_iff.mp d)]
    obtain ⟨q, tail, settled⟩ := u.channelTail_spec
    rw [tail]
    exact ⟨rfl, settled⟩

/-- A move's hand-over leaves the guard as it moved. -/
theorem State.handFrost_frost (s : State) (g : Frost) (opens : Bool) :
    ({ s with frost := g }.handFrost s.frost opens).frost = g := by
  rw [State.handFrost_eq]
  split
  · exact (congrArg State.frost (State.inputChanged_recomputedTo _).1).trans rfl
  · obtain ⟨q, tail, -⟩ := (s.guardMoved g opens).channelTail_spec
    rw [tail]
    rfl

/-- R155 and R158: the guard takes its new state, and the GATE window opens where it was closed before. -/
theorem State.moveFrost_handedTo (s : State) (g : Frost) :
    (s.moveFrost g).frost = g ∧ s.FrostHandedTo g (g.windows.gate && !s.frost.windows.gate) (s.moveFrost g) :=
  ⟨s.handFrost_frost g _, s.handFrost_handedTo g _⟩

/-! ### Orders and changes of stage -/

theorem Stage.limits_iff {x : Stage} : x.limits = true ↔ x = .limit ∨ x = .cycle := by
  cases x <;> decide

/-- R156: orders formed a second time are the same. -/
theorem Frost.formOrders_formOrders (p : Params) (oa : Option Int) (g : Frost) :
    (g.formOrders p oa).formOrders p oa = g.formOrders p oa := by
  have same : (g.formOrders p oa).orders p oa = g.orders p oa := by
    cases margin : g.margin
    case none =>
      simp only [Frost.orders, Frost.formOrders, margin]
      split_ifs <;> rfl
    case some m => simp only [Frost.orders, Frost.formOrders, margin]
  rw [Frost.formOrders, same]
  rfl

/-- R155: every change of stage but the one from CYCLE to STOP with the reason ICED clears the failed count as well as the counts
and the stop timer; into CYCLE a cycle starts, into another stage the cycles stop. -/
theorem Frost.enter_of_not_iced {r : Reason} (other : r ≠ .iced) (p : Params) (oa : Option Int) (x : Stage) (g : Frost) :
    g.enter p oa x r =
      Frost.formOrders p oa
        { g with
          stage := x, reason := r, hold := 0, saturation := 0, ice := 0, stopTimer := 0, failed := 0, gateResult := none
          unjudged := decide (x = .cycle) && g.fallback, counter := if x = .cycle then 1 else 0
          latched := if x = .cycle then p.cycleTimes else g.latched
          windows := if x = .cycle then p.cycleTimes.windowsAt 1 else .closed } := by
  by_cases cycles : x = .cycle <;>
    simp [Frost.enter, Frost.startCycle, Frost.stopCycle, Frost.clearCounts, other, cycles]

/-! ### Fallback -/

/-- R162: the orders of the row, and the PREHEAT window's. -/
theorem fallbackOrders_eq (p : Params) (oa : Option Int) (window : Bool) :
    fallbackOrders p oa window =
      let limits := fallbackStage p oa = .limit ∨ fallbackStage p oa = .cycle
      let fitted := p.get .preheatFitted = 1
      (if limits ∧ ¬fitted then roundDiv (p.nat .frostReduceMax) 2 else 0,
        if fitted ∧ window = true then 100 else if limits ∧ fitted then 50 else 0) := by
  unfold fallbackOrders Params.preheater
  simp only [Stage.limits_iff, decide_eq_true_eq]
  by_cases fitted : p.get .preheatFitted = 1 <;> simp [fitted]

/-- R162 and R163: the guard in FALLBACK with its counts cleared. -/
def Frost.inFallback (g : Frost) : Frost := { g with fallback := true, hold := 0, saturation := 0, ice := 0 }

/-- R162: in FALLBACK the orders are those of the row of OA. -/
theorem Frost.formOrders_of_fallback {g : Frost} (fallback : g.fallback = true) (p : Params) (oa : Option Int) :
    g.formOrders p oa =
      { g with
        reduction := (fallbackOrders p oa (g.stage = .cycle && g.windows.preheat)).1
        preheat := (fallbackOrders p oa (g.stage = .cycle && g.windows.preheat)).2 } := by
  rw [Frost.formOrders, Frost.orders, if_pos fallback]

/-- R155, R162 and R163: the entry into a stage in FALLBACK. A cycle that starts so is unjudged, and its first count may lie in the
PREHEAT window. -/
theorem Frost.enter_of_fallback {g : Frost} (fallback : g.fallback = true) {r : Reason} (other : r ≠ .iced) (p : Params)
    (oa : Option Int) (x : Stage) :
    g.enter p oa x r =
      let orders := fallbackOrders p oa (x = .cycle && (p.cycleTimes.windowsAt 1).preheat)
      { g with
        stage := x, reason := r, hold := 0, saturation := 0, ice := 0, stopTimer := 0, failed := 0, gateResult := none
        unjudged := x = .cycle, counter := if x = .cycle then 1 else 0
        latched := if x = .cycle then p.cycleTimes else g.latched
        windows := if x = .cycle then p.cycleTimes.windowsAt 1 else .closed
        reduction := orders.1, preheat := orders.2 } := by
  rw [Frost.enter_of_not_iced other, Frost.formOrders_of_fallback (by exact fallback), fallback]
  by_cases cycles : x = .cycle <;> simp [cycles]

section
variable {p : Params} {oa : Option Int} {g : Frost}

/-- R162: outside CYCLE, and from CYCLE into STOP, the guard enters the row's stage where it is another. -/
theorem Frost.fallbackEvaluate_of_change (differs : fallbackStage p oa ≠ g.stage)
    (taken : g.stage ≠ .cycle ∨ fallbackStage p oa = .stop) :
    g.fallbackEvaluate p oa = (g.inFallback.enter p oa (fallbackStage p oa) .outdoor).keepOrders := by
  have entered : (g.inFallback.enter p oa (fallbackStage p oa) .outdoor).formOrders p oa =
      g.inFallback.enter p oa (fallbackStage p oa) .outdoor := by
    rw [Frost.enter_of_not_iced (by decide), Frost.formOrders_formOrders]
  rw [← entered]
  unfold Frost.fallbackEvaluate
  by_cases cycles : g.stage = .cycle
  · have stops := taken.resolve_left (not_not.mpr cycles)
    simp only [if_pos cycles, stops, if_true]
    rfl
  · simp only [if_neg cycles, if_neg differs]
    rfl

/-- R162: outside CYCLE the guard stays in the row's stage. -/
theorem Frost.fallbackEvaluate_of_same (same : fallbackStage p oa = g.stage) (other : g.stage ≠ .cycle) :
    g.fallbackEvaluate p oa = (g.inFallback.formOrders p oa).keepOrders := by
  simp only [Frost.fallbackEvaluate, if_neg other, if_pos same]
  rfl

/-- R162 and R163: in CYCLE no other row than STOP is taken, and the cycle is not judged. -/
theorem Frost.fallbackEvaluate_of_cycle (cycles : g.stage = .cycle) (goes_on : fallbackStage p oa ≠ .stop) :
    g.fallbackEvaluate p oa = (Frost.formOrders p oa { g.inFallback with unjudged := true }).keepOrders := by
  simp only [Frost.fallbackEvaluate, if_pos cycles, if_neg goes_on]
  rfl

end

/-! ### FROST_EVALUATION -/

/-- R149: without a usable EHA an evaluation in RUN or COMMISSION is a fallback evaluation. -/
theorem exec_frostEvaluation_of_no_margin {s : State} (running : s.running = true) (absent : s.sensing.eha.usable = none)
    (mode : s.resolver.mode = .run ∨ s.resolver.mode = .commission) :
    exec .frostEvaluation s = .next (s.moveFrost (s.readMargin.fallbackEvaluate s.params s.frostOa)) := by
  have on : s.resolver.mode.stopped = false := by rcases mode with h | h <;> rw [h] <;> rfl
  have no_margin : s.readMargin.margin = none := by
    rw [State.readMargin, absent]
    rfl
  change execFrostEvaluation s = _
  rw [execFrostEvaluation, partEvent_of_running running, State.evaluateFrost, on, no_margin]
  rfl

/-- Settles O54: the row of OA and the guard's stage decide between a change of stage, a stay and a cycle that goes on; in each the
orders are those of `fallbackOrders`, and `State.moveFrost` hands the guard's move on. -/
theorem fallbackSetsTheStageFromOutdoors : Obligations.FallbackSetsTheStageFromOutdoors := by
  intro s running absent mode p g oa row tf limits fitted cut warm read becomes enters
  have row_eq : fallbackStage p oa = row := by
    simp only [row]
    cases oa <;> rfl
  have tf_eq : frostReference s.sensing.dewPoint = tf := by
    simp only [tf]
    cases s.sensing.dewPoint <;> rfl
  have read_eq : s.readMargin.inFallback = read := by
    rw [State.readMargin, tf_eq, absent]
    rfl
  have orders (window : Bool) : fallbackOrders p oa window = (cut, warm window) := by
    rw [fallbackOrders_eq, row_eq]
  have moves {f : Frost} (h : s.readMargin.fallbackEvaluate p oa = f.keepOrders) : becomes f := by
    obtain ⟨guard, handed⟩ := s.moveFrost_handedTo f.keepOrders
    refine ⟨s.moveFrost f.keepOrders, ?_, guard, ?_⟩
    · rw [exec_frostEvaluation_of_no_margin running absent mode]
      exact congrArg (fun x => Host.Outcome.next (s.moveFrost x)) h
    · rw [guard]
      exact handed
  refine ⟨fun differs taken => moves ?changes, fun same other => moves ?stays, fun cycles goes_on => moves ?goes_on⟩
  case changes =>
    rw [← row_eq] at differs taken
    rw [Frost.fallbackEvaluate_of_change (g := s.readMargin) differs taken, read_eq,
      Frost.enter_of_fallback rfl (by decide), orders, row_eq]
  case stays =>
    rw [Frost.fallbackEvaluate_of_same (g := s.readMargin) (row_eq.trans same) other, read_eq,
      Frost.formOrders_of_fallback rfl, orders]
    have outside : decide (read.stage = .cycle) = false := decide_eq_false other
    simp only [outside, Bool.false_and]
  case goes_on =>
    rw [Frost.fallbackEvaluate_of_cycle (g := s.readMargin) cycles (row_eq ▸ goes_on), read_eq,
      Frost.formOrders_of_fallback rfl, orders]
    have inside : decide (read.stage = .cycle) = true := decide_eq_true cycles
    simp only [inside, Bool.true_and]
    rfl

end Sys2Proof.Machine
end

