-- ==== Sys2Proof/Proofs/FilterTable.lean ====
section
/-! PROOFS. The filter table: the record that a fitting makes, the withdrawal of a FILTER request, and the commands that
fit and retire a filter (R135, R137, R171, R172). -/

namespace Sys2Proof.Machine

/-! ### What a slot reports -/

/-- R202: the filter report has one length, whether the slot holds a record or not. -/
@[simp] theorem State.filterReport_length (s : State) (i : FilterSlot) : (s.filterReport i).length = 32 := by
  unfold State.filterReport
  cases s.filters.slot i <;> simp [State.filterReportOf]

/-! ### What a fitting makes of its fields -/

theorem half_eq_zero_iff (x : Half) : x = 0 ↔ x.toNat = 0 := BitVec.toNat_eq

theorem clampNat_eq_min_max {lo hi : Nat} (h : lo ≤ hi) (x : Nat) : clampNat lo hi x = min hi (max lo x) := by
  unfold clampNat
  split_ifs <;> omega

/-- A clamp moves exactly the values outside its range. -/
theorem clampNat_ne_iff {lo hi : Nat} (h : lo ≤ hi) (x : Nat) : clampNat lo hi x ≠ x ↔ x < lo ∨ hi < x := by
  rw [clampNat_eq_min_max h]
  omega

theorem fittedInterval_eq (p : Params) (interval : Half) :
    fittedInterval p interval =
      if interval.toNat = 0 then p.nat .filterInterval else min 8760 (max 720 interval.toNat) := by
  simp only [fittedInterval, clampNat_eq_min_max (show 720 ≤ 8760 by decide), half_eq_zero_iff]

theorem fittedBaseline_eq (baseline : Half) :
    fittedBaseline baseline = if baseline.toNat = 0 then none else some (max 10 baseline.toNat) := by
  simp only [fittedBaseline, half_eq_zero_iff]

theorem fitClamped_iff (interval baseline : Half) :
    fitClamped interval baseline = true ↔
      interval.toNat ≠ 0 ∧ (interval.toNat < 720 ∨ 8760 < interval.toNat)
        ∨ baseline.toNat ≠ 0 ∧ baseline.toNat < 10 := by
  simp only [fitClamped, Bool.or_eq_true, Bool.and_eq_true, bne_iff_ne, decide_eq_true_eq,
    clampNat_ne_iff (show 720 ≤ 8760 by decide), ne_eq, half_eq_zero_iff]

/-- R171: a record is fitted LEARNING without a baseline and SERVICE with one. -/
theorem State.fittedRecord_eq (s : State) (g : Grade) (interval baseline : Half) :
    s.fittedRecord g interval baseline =
      { grade := g, fittedAt := s.hours
        interval := if interval.toNat = 0 then s.params.nat .filterInterval else min 8760 (max 720 interval.toNat)
        pn0 := if baseline.toNat = 0 then none else some (max 10 baseline.toNat)
        origin := if baseline.toNat = 0 then none else some .given
        learnCount := 0, learnSum := 0, latestPn := none, latestRatio := none, volume := 0, litres := 0
        state := if baseline.toNat = 0 then .learning else .service
        causes := 0, lastValid := none } := by
  rw [State.fittedRecord, fittedInterval_eq, fittedBaseline_eq]
  by_cases absent : baseline.toNat = 0 <;> simp [absent]

/-! ### The withdrawal of a FILTER request -/

/-- R135: a withdrawal empties the request's place, and ends the requester's own measurement alone. -/
theorem Pressure.withdraw_eq (p : Pressure) (x : Requester) :
    p.withdraw x =
      { p.setRequest x none with
        phase := if p.phase.flight.any (fun f => f.requester = x) then .free else p.phase } := by
  have phase_kept : p.setRequest x none = { p.setRequest x none with phase := p.phase } := by cases x <;> rfl
  unfold Pressure.withdraw
  cases p.phase.flight with
  | none => exact phase_kept
  | some f =>
    by_cases own : f.requester = x
    · simp [own]
    · simpa [own] using phase_kept

theorem State.filterRequested_iff (s : State) (i : FilterSlot) :
    s.filterRequested i = true ↔ ∃ q ∈ s.pressure.filter, q.slot = some i := by
  simp only [State.filterRequested, Option.any_eq_true, decide_eq_true_eq, Option.mem_def]

theorem State.withdrawFilter_of_unnamed {s : State} {i : FilterSlot}
    (unnamed : ¬∃ q ∈ s.pressure.filter, q.slot = some i) : s.withdrawFilter i = s :=
  if_neg ((s.filterRequested_iff i).not.mpr unnamed)

/-- R135 and R137: the slot's request is withdrawn and the FILTER timer starts again. -/
theorem State.withdrawFilter_of_named {s : State} {i : FilterSlot}
    (named : ∃ q ∈ s.pressure.filter, q.slot = some i) :
    s.withdrawFilter i =
      { s with
        pressure :=
          { s.pressure with
            filter := none, filterTimer := some (s.params.nat .filterPeriod * 60000)
            phase := if s.pressure.phase.flight.any (fun f => f.requester = .filter) then .free
              else s.pressure.phase } } := by
  rw [State.withdrawFilter, if_pos ((s.filterRequested_iff i).mpr named), Pressure.withdraw_eq]
  rfl

/-! ### FIT_FILTER and RETIRE_FILTER -/

/-- R171 and R172: what follows a slot's new content, whatever it is. -/
theorem State.refit_recomputedTo (s : State) (i : FilterSlot) (r : Option FilterRecord) :
    State.RecomputedTo
      { s with
        filters := s.filters.setSlot i r, notices := s.notices.set .filter, store := s.store.change .filterRecords }
      (s.refit i r) :=
  State.inputChanged_recomputedTo _

/-- R198: a byte past the two slots names none. -/
theorem memberOf_filterSlot_of_ge {slot : Byte} (h : 2 ≤ slot.toNat) : memberOf FilterSlot.members slot = none :=
  List.getElem?_eq_none h

/-- R198: a byte past the three grades names none. -/
theorem memberOf_grade_of_ge {grade : Byte} (h : 3 ≤ grade.toNat) : memberOf Grade.members grade = none :=
  List.getElem?_eq_none h

section
variable {s : State} (answering : s.answering = true) {slot grade : Byte} {i : FilterSlot} {g : Grade}
include answering

theorem exec_fitFilter_of_refused
    (refused : memberOf FilterSlot.members slot = none ∨ memberOf Grade.members grade = none)
    (interval baseline : Half) :
    exec (.fitFilter slot grade interval baseline) s = .next (s.respond .badValue []) := by
  change execFitFilter slot grade interval baseline s = _
  rw [execFitFilter, hostCommand_of_answering answering]
  rcases refused with no_slot | no_grade
  · rw [no_slot]; rfl
  · rw [no_grade]; cases memberOf FilterSlot.members slot <;> rfl

theorem exec_fitFilter_of_occupied (slot_eq : memberOf FilterSlot.members slot = some i)
    (grade_eq : memberOf Grade.members grade = some g) (occupied : s.filters.slot i ≠ none)
    (interval baseline : Half) :
    exec (.fitFilter slot grade interval baseline) s = .next (s.respond .slotOccupied []) := by
  change execFitFilter slot grade interval baseline s = _
  rw [execFitFilter, hostCommand_of_answering answering, slot_eq, grade_eq]
  exact congrArg _ (if_pos (Option.isSome_iff_ne_none.mpr occupied))

/-- R171: an empty slot takes the fitted record, and the slot's report answers. -/
theorem exec_fitFilter_of_empty (slot_eq : memberOf FilterSlot.members slot = some i)
    (grade_eq : memberOf Grade.members grade = some g) (empty : s.filters.slot i = none)
    (interval baseline : Half) :
    exec (.fitFilter slot grade interval baseline) s =
      .next ((s.refit i (some (s.fittedRecord g interval baseline))).respond
        (clampStatus (fitClamped interval baseline))
        ((s.refit i (some (s.fittedRecord g interval baseline))).filterReport i)) := by
  change execFitFilter slot grade interval baseline s = _
  rw [execFitFilter, hostCommand_of_answering answering, slot_eq, grade_eq]
  exact congrArg _ (if_neg (by simp [empty]))

theorem exec_retireFilter_of_refused (refused : memberOf FilterSlot.members slot = none) :
    exec (.retireFilter slot) s = .next (s.respond .badValue []) := by
  change execRetireFilter slot s = _
  rw [execRetireFilter, hostCommand_of_answering answering, refused]
  rfl

theorem exec_retireFilter_of_empty (slot_eq : memberOf FilterSlot.members slot = some i)
    (empty : s.filters.slot i = none) : exec (.retireFilter slot) s = .next (s.respond .slotEmpty []) := by
  change execRetireFilter slot s = _
  rw [execRetireFilter, hostCommand_of_answering answering, slot_eq]
  exact congrArg _ (if_pos (Option.isNone_iff_eq_none.mpr empty))

/-- R172: the record as it stood answers; its request is withdrawn and its slot emptied. -/
theorem exec_retireFilter_of_occupied (slot_eq : memberOf FilterSlot.members slot = some i) {r : FilterRecord}
    (occupied : s.filters.slot i = some r) :
    exec (.retireFilter slot) s = .next (((s.withdrawFilter i).refit i none).respond .ok (s.filterReport i)) := by
  change execRetireFilter slot s = _
  rw [execRetireFilter, hostCommand_of_answering answering, slot_eq]
  exact congrArg _ (if_neg (by simp [occupied]))

end

/-- Settles O58: each command by what its bytes name and what the slot holds; where a slot changes, what follows is
`State.refit_recomputedTo`, for a retired slot after the withdrawal of its request. -/
theorem filtersAreFittedAndRetired : Obligations.FiltersAreFittedAndRetired := by
  intro slot s answering after
  refine ⟨fun grade interval baseline => ⟨fun outside => ?fit_refused, fun i g slot_eq grade_eq =>
      ⟨fun occupied => exec_fitFilter_of_occupied answering slot_eq grade_eq occupied interval baseline,
        fun empty => ?fitted⟩⟩,
    fun outside => exec_retireFilter_of_refused answering (memberOf_filterSlot_of_ge outside),
    fun i slot_eq => ⟨exec_retireFilter_of_empty answering slot_eq, fun r occupied => ?retired⟩⟩
  case fit_refused =>
    exact exec_fitFilter_of_refused answering (outside.imp memberOf_filterSlot_of_ge memberOf_grade_of_ge)
      interval baseline
  case fitted =>
    intro hours r clamped
    have record_eq : s.fittedRecord g interval baseline = r := s.fittedRecord_eq g interval baseline
    have status_eq : clampStatus (fitClamped interval baseline) = if clamped then .clamped else .ok := by
      simp only [clampStatus, fitClamped_iff, clamped]
    have fits := exec_fitFilter_of_empty answering slot_eq grade_eq empty interval baseline
    rw [record_eq, status_eq] at fits
    exact ⟨_, fits, State.filterReport_length _ i, s.refit_recomputedTo i (some r)⟩
  case retired =>
    intro named withdrawn
    refine ⟨_, exec_retireFilter_of_occupied answering slot_eq occupied, fun unnamed => ?kept,
      fun has_request => ?ended⟩
    case kept =>
      rw [State.withdrawFilter_of_unnamed unnamed]
      exact s.refit_recomputedTo i none
    case ended =>
      rw [State.withdrawFilter_of_named has_request]
      exact State.refit_recomputedTo { s with pressure := withdrawn } i none

end Sys2Proof.Machine
end

