-- ==== Sys2Proof/Proofs/Notices.lean ====
section
/-! PROOFS. The notices: where each field of a report stands in its bytes, the report and the clearing of the flags
(R189, R190), and ATTN as a matter of single flags (R191). -/

namespace Sys2Proof.Machine

/-! ### Fields in their places -/

/-- A field past the front of the data is a field of the rest. -/
theorem fieldAt_append_of_le {front : List Byte} {place : Nat} (past : front.length ≤ place) (back : List Byte)
    (width : Nat) : fieldAt (front ++ back) place width = fieldAt back (place - front.length) width := by
  rw [fieldAt, List.drop_append, List.drop_eq_nil_of_le past, List.nil_append, fieldAt]

/-- R198: the field at the head of the data reads back the number it was made from, where that fits. -/
theorem fieldAt_bytesOf_append {width n : Nat} (fits : n < 256 ^ width) (back : List Byte) :
    fieldAt (bytesOf width n ++ back) 0 width = n := by
  rw [fieldAt, List.drop_zero, List.take_left' (bytesOf_length width n), natOfBytes_bytesOf, Nat.mod_eq_of_lt fits]

/-- R198: a field that is all the data reads back as well. -/
theorem fieldAt_bytesOf {width n : Nat} (fits : n < 256 ^ width) : fieldAt (bytesOf width n) 0 width = n := by
  simpa using fieldAt_bytesOf_append fits []

/-! ### The bits of the flags -/

theorem Notice.bit_lt (x : Notice) : x.bit < 9 := by cases x <;> decide

/-- R198: every bit of the set of flags names a flag. -/
theorem Notice.exists_bit_eq : ∀ i < 9, ∃ x : Notice, x.bit = i
  | 0, _ => ⟨.reset, rfl⟩
  | 1, _ => ⟨.demand, rfl⟩
  | 2, _ => ⟨.filter, rfl⟩
  | 3, _ => ⟨.fan, rfl⟩
  | 4, _ => ⟨.frost, rfl⟩
  | 5, _ => ⟨.station, rfl⟩
  | 6, _ => ⟨.sensor, rfl⟩
  | 7, _ => ⟨.measure, rfl⟩
  | 8, _ => ⟨.store, rfl⟩

/-- A set of flags is empty exactly when no flag is in it. -/
theorem flags_eq_zero_iff (flags : BitVec 9) : flags = 0 ↔ ∀ x : Notice, flags.getLsbD x.bit = false := by
  refine ⟨fun empty x => by simp [empty], fun absent => BitVec.eq_of_getLsbD_eq fun i i_lt => ?_⟩
  obtain ⟨x, rfl⟩ := Notice.exists_bit_eq i i_lt
  simpa using absent x

/-- Flag by flag, the flags without a mask's are those that are set and not masked. -/
theorem getLsbD_and_not_mask (flags mask : BitVec 9) (x : Notice) :
    (flags &&& ~~~mask).getLsbD x.bit = (flags.getLsbD x.bit && !mask.getLsbD x.bit) := by
  simp [x.bit_lt]

/-! ### READ_NOTICES -/

/-- R198: the codes of the causes of a reset. -/
theorem codeOf_resetCause_iff (c : ResetCause) :
    (codeOf ResetCause.members c = 0 ↔ c = .power) ∧ (codeOf ResetCause.members c = 1 ↔ c = .pin)
      ∧ (codeOf ResetCause.members c = 2 ↔ c = .command) := by
  cases c <;> decide

theorem codeOf_resetCause_lt (c : ResetCause) : codeOf ResetCause.members c < 256 ^ 1 := by cases c <;> decide

@[simp] theorem State.noticeReport_length (s : State) : s.noticeReport.length = 14 := by simp [State.noticeReport]

/-- R200: each field of the report in its place. -/
theorem State.noticeReport_fields (s : State) (seconds_fit : s.clock.seconds < 256 ^ 4)
    (hours_fit : s.hours < 256 ^ 4) :
    fieldAt s.noticeReport 0 2 = s.notices.flags.toNat ∧ fieldAt s.noticeReport 2 2 = s.params.mask.toNat
      ∧ fieldAt s.noticeReport 4 1 = codeOf ResetCause.members s.notices.cause
      ∧ fieldAt s.noticeReport 5 1 = s.notices.defaulted.toNat ∧ fieldAt s.noticeReport 6 4 = s.clock.seconds
      ∧ fieldAt s.noticeReport 10 4 = s.hours := by
  have flags_fit : s.notices.flags.toNat < 256 ^ 2 := by omega
  have mask_fits : s.params.mask.toNat < 256 ^ 2 := by omega
  have cause_fits := codeOf_resetCause_lt s.notices.cause
  have defaulted_fits : s.notices.defaulted.toNat < 256 ^ 1 := by omega
  simp (disch := simp) only [State.noticeReport, enumByte, List.append_assoc, fieldAt_append_of_le, bytesOf_length,
    Nat.reduceSub]
  exact ⟨fieldAt_bytesOf_append flags_fit _, fieldAt_bytesOf_append mask_fits _, fieldAt_bytesOf_append cause_fits _,
    fieldAt_bytesOf_append defaulted_fits _, fieldAt_bytesOf_append seconds_fit _, fieldAt_bytesOf hours_fit⟩

section
variable {s : State} (answering : s.answering = true)
include answering

theorem exec_readNotices_of_answering : exec .readNotices s = .next (s.respond .ok s.noticeReport) := by
  change execReadNotices s = _
  rw [execReadNotices, hostCommand_of_answering answering]

/-! ### CLEAR_NOTICES -/

theorem exec_clearNotices_of_refused {flags : Half} (unnamed : 512 ≤ flags.toNat) :
    exec (.clearNotices flags) s = .next (s.respond .badValue []) := by
  change execClearNotices flags s = _
  rw [execClearNotices, hostCommand_of_answering answering, if_pos unnamed]
  rfl

theorem exec_clearNotices_of_named {flags : Half} (named : flags.toNat < 512) :
    exec (.clearNotices flags) s =
      .next ((s.clearNotices (flags.extractLsb' 0 9)).respond .ok
        (bytesOf 2 (s.notices.clear (flags.extractLsb' 0 9)).flags.toNat)) := by
  change execClearNotices flags s = _
  rw [execClearNotices, hostCommand_of_answering answering, if_neg (not_le.mpr named)]
  rfl

end

/-- R190: a flag that is named is cleared, any other is left as it is. -/
theorem Notices.has_clear (n : Notices) (flags : Half) (x : Notice) :
    (n.clear (flags.extractLsb' 0 9)).has x = (n.has x && !flags.getLsbD x.bit) := by
  rw [Notices.has, Notices.clear, getLsbD_and_not_mask]
  simp [Notices.has, x.bit_lt]

/-- Settles O11: the report's fields read back as they were put (`State.noticeReport_fields`), and a clearing acts flag
by flag (`Notices.has_clear`). -/
theorem noticesAreReadAndCleared : Obligations.NoticesAreReadAndCleared := by
  intro s answering
  refine ⟨fun seconds_le hours_le => ?read, fun flags =>
    ⟨exec_clearNotices_of_refused answering, fun named =>
      ⟨_, s.notices.has_clear flags, exec_clearNotices_of_named answering named⟩⟩⟩
  case read =>
    obtain ⟨flags_eq, mask_eq, cause_eq, defaulted_eq, seconds_eq, hours_eq⟩ :=
      s.noticeReport_fields (Nat.lt_succ_of_le seconds_le) (Nat.lt_succ_of_le hours_le)
    obtain ⟨power, pin, command⟩ := codeOf_resetCause_iff s.notices.cause
    rw [← cause_eq] at power pin command
    exact ⟨_, exec_readNotices_of_answering answering, s.noticeReport_length, flags_eq, mask_eq, power, pin, command,
      defaulted_eq, seconds_eq, hours_eq⟩

/-! ### ATTN -/

/-- R191: some flag outside NOTICE_MASK is set, as the model tests it and flag by flag. -/
theorem unmasked_flags_ne_zero_iff (n : Notices) (mask : BitVec 9) :
    n.flags &&& ~~~mask ≠ 0 ↔ ∃ x : Notice, n.has x = true ∧ mask.getLsbD x.bit = false := by
  simp only [ne_eq, flags_eq_zero_iff, not_forall, getLsbD_and_not_mask, Notices.has, Bool.not_eq_false,
    Bool.and_eq_true, Bool.not_eq_true']

theorem State.attn_iff (s : State) :
    s.attn = true ↔ s.running = true ∧ s.link.loading = false
      ∧ ∃ x : Notice, s.notices.has x = true ∧ s.params.mask.getLsbD x.bit = false := by
  rw [State.attn, Bool.and_eq_true, Bool.and_eq_true, Bool.not_eq_true', bne_iff_ne, unmasked_flags_ne_zero_iff,
    and_assoc]

/-- R189: a flag stands in its own set joined with any other. -/
theorem Notice.flag_or_getLsbD (x : Notice) (others : BitVec 9) : (x.flag ||| others).getLsbD x.bit = true := by
  simp [Notice.flag, x.bit_lt]

/-- Settles O12: ATTN by `State.attn_iff`, ATTN_N as its complement; a reset joins RESET to whatever else it sets. -/
theorem attnFollowsTheFlags : Obligations.AttnFollowsTheFlags :=
  ⟨fun s => ⟨s.attn_iff, rfl⟩, by decide, fun _ _ => Notice.reset.flag_or_getLsbD _⟩

end Sys2Proof.Machine
end

/-! PROOFS. What a step can do, said once: every step is a chain of moves, each of which gives one block new items, or gives a
block new items and recomputes. A move carries what its block keeps; the statements that every step keeps something are
inductions over the chain. -/

namespace Sys2Proof.Machine

/-! ### What the moves keep -/

/-- R7 to R10: the six channels are well formed. -/
abbrev Sensing.ChannelsOk (x : Sensing) : Prop := ∀ c : AnalogChannel, (x.channel c).Ok

/-- R68: the seven sources are well formed. -/
abbrev Humidity.SourcesOk (h : Humidity) : Prop := ∀ i : SourceId, (h.source i).Ok

/-- R82: what the HUMIDITY record says, where it is live. -/
def DemandTable.humidityAsk (t : DemandTable) : Option (Nat × Bool) := t.humidityRecord.map fun r => (r.level, r.held)

/-- R90 and R91: what the resolver reads of a record. -/
def DemandRecord.read (r : DemandRecord) : Kind × Bool × Nat × Half := (r.kind, r.held, r.level, r.handle)

/-- A change of the demand table that keeps it well formed and moves no HUMIDITY record. -/
structure State.TableTo (s : State) (d : DemandTable) : Prop where
  ok : s.demand.Ok → s.SettingsOk → d.Ok
  entries : s.demand.EntriesOk → d.EntriesOk
  ask : s.demand.Ok → d.humidityAsk = s.demand.humidityAsk

/-- A change of the guard that keeps it well formed and, while it stands down, standing down. -/
structure State.GuardTo (s : State) (g : Frost) : Prop where
  ok : s.SettingsOk → s.frost.CycleOk → s.frost.CountsOk → g.CycleOk ∧ g.CountsOk
  stand : s.resolver.mode.stopped = true → s.frost.stage = .clear ∧ s.frost.fallback = false →
    g.stage = .clear ∧ g.fallback = false

/-- A fan's new items that leave its drive: its state, source and duties. -/
abbrev Fan.SameDrive (x y : Fan) : Prop :=
  y.state = x.state ∧ y.source = x.source ∧ y.requested = x.requested ∧ y.commanded = x.commanded

/-- A change inside the drive that is no input of the resolver. -/
structure State.DriveTo (s : State) (d : Drive) : Prop where
  cals : s.SettingsOk → d.cals.Ok
  trim : s.drive.TrimOk → d.TrimOk
  fans : s.SettingsOk → (∀ f, (s.drive.fan f).Ok) → ∀ f, (d.fan f).Ok
  available : ∀ f, (d.fan f).state.available = (s.drive.fan f).state.available
  requests : s.RequestsCurrent → State.RequestsCurrent { s with drive := d }
  preheater : d.preheater.effective = s.drive.preheater.effective ∧ d.preheater.pin = s.drive.preheater.pin

/-! ### The moves -/

/-- One move of a step. `aside` moves what no invariant reads; a constructor whose name ends in `Read` changes what the
resolver reads and recomputes. -/
inductive State.Move (s : State) : State → Prop
  | aside {t : State}
      (same : t = { s with
        pending := t.pending, agenda := t.agenda, freeCount := t.freeCount, life := t.life, clock := t.clock
        hours := t.hours, link := t.link, notices := t.notices }) : s.Move t
  | sensing (x : Sensing) (ok : s.sensing.ChannelsOk → x.ChannelsOk) : s.Move { s with sensing := x }
  | bus (b : Bus) (ok : s.bus.Ok → b.Ok) : s.Move { s with bus := b }
  | store (m : Store) (ok : s.SettingsOk → m.Ok) (queue : s.store.QueueOk → m.QueueOk) : s.Move { s with store := m }
  | stored (m : Mode) (ok : m.storable = true) : s.Move { s with resolver := { s.resolver with stored := m } }
  | pendingMode (m : Mode) (ok : m ≠ .startup) (startup : s.resolver.mode = .startup) :
      s.Move { s with resolver := { s.resolver with pending := m } }
  | params (p : Params) (ok : s.params.Ok → p.Ok)
      (unread : ∀ x : Param, x.resolverReads = true ∨ x = .steadyTime → p.get x = s.params.get x) :
      s.Move { s with params := p }
  | paramsSteady (p : Params) (ok : s.params.Ok → p.Ok)
      (unread : ∀ x : Param, x.resolverReads = true → p.get x = s.params.get x) :
      s.Move (State.refreshSteady { s with params := p })
  | paramsRead (p : Params) (ok : s.params.Ok → p.Ok) : s.Move (State.recompute { s with params := p })
  | table (d : DemandTable) (kept : s.TableTo d)
      (unread : s.demand.EntriesOk → d.live.map DemandRecord.read = s.demand.live.map DemandRecord.read) :
      s.Move { s with demand := d }
  | tableRead (d : DemandTable) (kept : s.TableTo d) : s.Move (State.recompute { s with demand := d })
  | inhibit (h : Humidity) (same : ∀ i, ∃ n, h.source i = { s.humidity.source i with inhibit := n }) :
      s.Move { s with humidity := h }
  | align (h : Humidity) (ok : s.SettingsOk → s.humidity.SourcesOk → h.SourcesOk) :
      s.Move (State.alignHumidity { s with humidity := h })
  | pressure (p : Pressure) (ok : s.pressure.Ok → p.Ok)
      (link : p.link.isSome = true → s.pressure.link.isSome = true ∨ s.resolver.mode.stopped = false) :
      s.Move { s with pressure := p }
  | frost (g : Frost) (kept : s.GuardTo g) (unread : g.differs s.frost = false) : s.Move { s with frost := g }
  | frostRead (g : Frost) (kept : s.GuardTo g) : s.Move (State.recompute { s with frost := g })
  | mode (m : Mode) (d : Drive) (g : Frost) (named : s.resolver.ModesOk → m ≠ .startup)
      (sources : d = s.drive ∨ d = s.drive.allAuto)
      (guard : s.SettingsOk → s.frost.CycleOk → s.frost.CountsOk → g.CycleOk ∧ g.CountsOk)
      (stand : m = .standby → g.stage = .clear ∧ g.fallback = false ∧ s.pressure.link = none) :
      s.Move (State.recompute
        { s with resolver := { s.resolver with mode := m, pending := m }, drive := d, frost := g })
  | filters (f : Filters)
      (unread : f.missing = s.filters.missing ∧ f.anyIn .overdue = s.filters.anyIn .overdue) :
      s.Move { s with filters := f }
  | filtersRead (f : Filters) : s.Move (State.recompute { s with filters := f })
  | fans (sup ext : Fan) (elapsed : Nat) (later : s.drive.elapsed ≤ elapsed)
      (same : s.drive.sup.SameDrive sup ∧ s.drive.ext.SameDrive ext)
      (ok : (s.drive.sup.Ok → sup.Ok) ∧ (s.drive.ext.Ok → ext.Ok)) :
      s.Move { s with drive := { s.drive with sup := sup, ext := ext, elapsed := elapsed } }
  | fanRead (f : FanId) (x : Fan) (ok : (s.drive.fan f).Ok → x.Ok) :
      s.Move (State.recompute { s with drive := s.drive.moveFan f x })
  | preheater (h : Preheater) (same : h.source = s.drive.preheater.source ∧ h.effective = s.drive.preheater.effective)
      (pin : s.PreheatOk → h.pin = true → 0 < h.effective) : s.Move { s with drive := { s.drive with preheater := h } }
  | steady (elapsed : Nat) :
      s.Move (State.refreshSteady { s with drive := { s.drive with elapsed := elapsed } })
  | drive (d : Drive) (kept : s.DriveTo d) : s.Move (State.driveTail { s with drive := d })
  | reload (cause : ResetCause) (straps : BitVec 2) : s.Move (s.reload cause straps)

/-- A chain of moves. -/
abbrev State.Moves (s t : State) : Prop := Relation.ReflTransGen State.Move s t

/-- What every move keeps, a chain of moves keeps. -/
theorem State.Moves.keeps {P : State → Prop} {s t : State} (moves : s.Moves t)
    (kept : ∀ u v : State, u.Move v → P u → P v) (start : P s) : P t := by
  induction moves with
  | refl => exact start
  | tail _ last ih => exact kept _ _ last ih

theorem State.Move.moves {s t : State} (h : s.Move t) : s.Moves t := .single h

/-- What no invariant reads may move at any time. -/
theorem State.Moves.aside {s t u : State} (h : s.Moves t)
    (same : u = { t with
      pending := u.pending, agenda := u.agenda, freeCount := u.freeCount, life := u.life, clock := u.clock
      hours := u.hours, link := u.link, notices := u.notices }) : s.Moves u := h.tail (.aside same)

theorem State.Moves.respond {s t : State} (h : s.Moves t) (status : Status) (data : List Byte) :
    s.Moves (t.respond status data) := h.aside rfl

theorem State.Moves.notify {s t : State} (h : s.Moves t) (x : Notice) : s.Moves (t.notify x) := h.aside rfl

theorem State.Moves.notifyIf {s t : State} (h : s.Moves t) (c : Bool) (x : Notice) : s.Moves (t.notifyIf c x) := by
  rw [State.notifyIf_eq]
  exact h.aside rfl

theorem State.refuse_moves (s : State) (status : Status) : s.Moves (s.refuse status) :=
  State.Moves.respond .refl status []

/-- A command of the host makes its moves where the part takes it. -/
theorem hostCommand_moves {s t : State} {run : State → State} (h : s.Moves (run s)) (e : hostCommand s run = .next t) :
    s.Moves t := by
  obtain rfl := Host.Outcome.next.inj e
  split
  · exact h
  · exact .refl

/-- An event makes its moves where the part runs. -/
theorem partEvent_moves {s t : State} {run : State → State} (h : s.Moves (run s)) (e : partEvent s run = .next t) :
    s.Moves t := by
  obtain rfl := Host.Outcome.next.inj e
  split
  · exact h
  · exact .refl

end Sys2Proof.Machine

/-! PROOFS. The pressure channel: what each of its operations keeps of the agreement between requests, measurement in flight and
LINK record (R128 to R141). -/

namespace Sys2Proof.Machine

/-! ### What agreement says, free and in flight -/

/-- R132: the request asks for a tap of its requester. -/
def Requester.Asks (x : Requester) (q : Request) : Prop :=
  match x with
  | .frost => q.tap = .exch
  | .trim => q.tap = .flow
  | .filter => ∃ i ∈ q.slot, q.tap = i.tap
  | .link => True

theorem Pressure.tapsOk_iff (p : Pressure) : p.TapsOk ↔ ∀ x, ∀ q ∈ p.request x, x.Asks q := by
  constructor
  · rintro ⟨frost, trim, filter⟩ x q hq
    cases x with
    | frost => exact frost q hq
    | trim => exact trim q hq
    | filter => exact filter q hq
    | link => trivial
  · exact fun asks => ⟨asks .frost, asks .trim, asks .filter⟩

theorem Pressure.ok_iff (p : Pressure) :
    p.Ok ↔ (∀ x, p.SlotOk x) ∧ p.RecordOk ∧ (∀ x, ∀ q ∈ p.request x, x.Asks q) ∧ p.history.length ≤ 2
      ∧ ∀ f ∈ p.phase.flight, f.count < 8 ∧ f.sum ≤ 4999 * f.count := by
  rw [← p.tapsOk_iff]
  constructor
  · rintro ⟨frost, trim, filter, link, record, taps, history, flight⟩
    exact ⟨fun x => by cases x <;> assumption, record, taps, history, flight⟩
  · rintro ⟨slots, record, taps, history, flight⟩
    exact ⟨slots .frost, slots .trim, slots .filter, slots .link, record, taps, history, flight⟩

/-- A FREE channel has granted nothing. -/
theorem Pressure.ok_iff_of_free {p : Pressure} (free : p.phase.flight = none) :
    p.Ok ↔ (∀ x, ∀ q ∈ p.request x, x.Asks q ∧ q.granted = false) ∧ p.RecordOk ∧ p.history.length ≤ 2 := by
  rw [p.ok_iff]
  constructor
  · rintro ⟨slots, record, asks, history, -⟩
    refine ⟨fun x q hq => ⟨asks x q hq, ?_⟩, record, history⟩
    by_contra granted
    obtain ⟨f, hf, -⟩ := (slots x).1 q hq (by simpa using granted)
    simp [free] at hf
  · rintro ⟨asks, record, history⟩
    refine ⟨fun x => ⟨fun q hq granted => ?_, by simp [free]⟩, record, fun x q hq => (asks x q hq).1, history,
      by simp [free]⟩
    simp [(asks x q hq).2] at granted

/-- A measurement in flight is that of the one granted request. -/
theorem Pressure.ok_iff_of_flight {p : Pressure} {f : Flight} (busy : p.phase.flight = some f) :
    p.Ok ↔ p.request f.requester = some ⟨f.tap, f.slot, true⟩
      ∧ (∀ x, x ≠ f.requester → ∀ q ∈ p.request x, q.granted = false) ∧ (∀ x, ∀ q ∈ p.request x, x.Asks q)
      ∧ p.RecordOk ∧ p.history.length ≤ 2 ∧ f.count < 8 ∧ f.sum ≤ 4999 * f.count := by
  rw [p.ok_iff]
  constructor
  · rintro ⟨slots, record, asks, history, flight⟩
    obtain ⟨q, hq, granted⟩ := (slots f.requester).2 f busy rfl
    obtain ⟨g, hg, -, tap, slot⟩ := (slots f.requester).1 q hq granted
    obtain rfl : f = g := Option.some.inj (busy.symm.trans hg)
    refine ⟨?_, fun x other q hq => ?_, asks, record, history, flight f busy⟩
    · rw [Option.mem_def.1 hq, tap, slot, ← granted]
    · by_contra granted
      obtain ⟨g, hg, own, -⟩ := (slots x).1 q hq (by simpa using granted)
      obtain rfl : f = g := Option.some.inj (busy.symm.trans hg)
      exact other own.symm
  · rintro ⟨own, others, asks, record, history, flight⟩
    refine ⟨fun x => ⟨fun q hq granted => ⟨f, busy, ?_⟩, fun g hg same => ?_⟩, record, asks, history, fun g hg => ?_⟩
    · by_cases same : x = f.requester
      · subst same
        rw [own] at hq
        obtain rfl := Option.some.inj hq
        exact ⟨rfl, rfl, rfl⟩
      · simp [others x same q hq] at granted
    · obtain rfl : f = g := Option.some.inj (busy.symm.trans hg)
      exact ⟨_, same ▸ own, rfl⟩
    · obtain rfl : f = g := Option.some.inj (busy.symm.trans hg)
      exact flight

/-- The agreement reads the phase, the requests, the LINK record and the grant history. -/
theorem Pressure.Ok.congr {p q : Pressure} (ok : p.Ok) (phase : q.phase = p.phase) (frost : q.frost = p.frost)
    (trim : q.trim = p.trim) (filter : q.filter = p.filter) (link : q.link = p.link) (record : q.record = p.record)
    (history : q.history = p.history) : q.Ok := by
  have requests (x : Requester) : q.request x = p.request x := by cases x <;> assumption
  rw [Pressure.ok_iff] at ok ⊢
  simpa only [Pressure.SlotOk, Pressure.RecordOk, requests, phase, link, record, history] using ok

/-! ### Filing, withdrawing, aborting, granting -/

theorem Pressure.setRequest_phase (p : Pressure) (x : Requester) (v : Option Request) :
    (p.setRequest x v).phase = p.phase := by cases x <;> rfl

theorem Pressure.setRequest_history (p : Pressure) (x : Requester) (v : Option Request) :
    (p.setRequest x v).history = p.history := by cases x <;> rfl

theorem Pressure.setRequest_link {p : Pressure} {x : Requester} {v : Option Request} (other : x ≠ .link) :
    (p.setRequest x v).link = p.link := Pressure.request_setRequest_of_ne p v other.symm

theorem Pressure.mem_request_setRequest {p : Pressure} {x y : Requester} {v : Option Request} {q : Request} :
    q ∈ (p.setRequest x v).request y ↔ if y = x then q ∈ v else q ∈ p.request y := by
  by_cases h : y = x
  · subst h; simp
  · simp [Pressure.request_setRequest_of_ne p v h, h]

/-- The LINK record and its request, as RecordOk reads them. -/
theorem Pressure.RecordOk.congr {p q : Pressure} (ok : p.RecordOk) (record : q.record = p.record)
    (link : q.link = p.link) : q.RecordOk := by
  simpa only [Pressure.RecordOk, record, link] using ok

/-- A request put into a slot that is not in flight, or the emptying of one. -/
theorem Pressure.Ok.requested {p q : Pressure} (ok : p.Ok) {x : Requester} {v : Option Request}
    (idle : ∀ f ∈ p.phase.flight, f.requester ≠ x) (waits : ∀ r ∈ v, x.Asks r ∧ r.granted = false)
    (requests : ∀ y, q.request y = (p.setRequest x v).request y) (phase : q.phase = p.phase) (record : q.RecordOk)
    (history : q.history = p.history) : q.Ok := by
  have asks (y : Requester) (r : Request) (hr : r ∈ q.request y) : y.Asks r := by
    rw [requests, Pressure.mem_request_setRequest] at hr
    split at hr
    · next same => exact same ▸ (waits r hr).1
    · exact (p.ok_iff.1 ok).2.2.1 y r hr
  cases hf : p.phase.flight with
  | none =>
    obtain ⟨all, -, short⟩ := (Pressure.ok_iff_of_free hf).1 ok
    refine (Pressure.ok_iff_of_free (phase ▸ hf)).2 ⟨fun y r hr => ⟨asks y r hr, ?_⟩, record, history ▸ short⟩
    rw [requests, Pressure.mem_request_setRequest] at hr
    split at hr
    · exact (waits r hr).2
    · exact (all y r hr).2
  | some f =>
    obtain ⟨own, others, -, -, short, flight⟩ := (Pressure.ok_iff_of_flight hf).1 ok
    refine (Pressure.ok_iff_of_flight (phase ▸ hf)).2
      ⟨?_, fun y hy r hr => ?_, asks, record, history ▸ short, flight⟩
    · rw [requests, Pressure.request_setRequest_of_ne p v (idle f hf)]; exact own
    · rw [requests, Pressure.mem_request_setRequest] at hr
      split at hr
      · exact (waits r hr).2
      · exact others y hy r hr

/-- The slot of another requester than LINK, not in flight, takes a request or is emptied. -/
theorem Pressure.Ok.setRequest {p : Pressure} (ok : p.Ok) {x : Requester} {v : Option Request} (other : x ≠ .link)
    (idle : ∀ f ∈ p.phase.flight, f.requester ≠ x) (waits : ∀ q ∈ v, x.Asks q ∧ q.granted = false) :
    (p.setRequest x v).Ok :=
  ok.requested idle waits (fun _ => rfl) (p.setRequest_phase x v)
    ((p.ok_iff.1 ok).2.1.congr (p.setRequest_record x v) (Pressure.setRequest_link other)) (p.setRequest_history x v)

/-- R133: the filing of a request of another requester than LINK. -/
theorem Pressure.Ok.file {p : Pressure} (ok : p.Ok) {x : Requester} (other : x ≠ .link) {t : Tap}
    {slot : Option FilterSlot} (asks : x.Asks ⟨t, slot, false⟩) : (p.file x t slot).Ok := by
  unfold Pressure.file
  split
  · next empty =>
    refine ok.setRequest other (fun f hf same => ?_) (by rintro q ⟨⟩; exact ⟨asks, rfl⟩)
    have own := ((Pressure.ok_iff_of_flight hf).1 ok).1
    rw [same] at own
    simp [own] at empty
  · exact ok

/-- A channel freed of its measurement, the slot of its requester emptied or WAITING again. -/
theorem Pressure.Ok.freed {p q : Pressure} (ok : p.Ok) {f : Flight} (busy : p.phase.flight = some f)
    {v : Option Request} (waits : ∀ r ∈ v, f.requester.Asks r ∧ r.granted = false)
    (requests : ∀ x, q.request x = (p.setRequest f.requester v).request x) (free : q.phase = .free)
    (record : q.RecordOk) (history : q.history = p.history) : q.Ok := by
  obtain ⟨-, others, asks, -, short, -⟩ := (Pressure.ok_iff_of_flight busy).1 ok
  refine (Pressure.ok_iff_of_free (by rw [free]; rfl)).2 ⟨fun x r hr => ?_, record, history ▸ short⟩
  rw [requests, Pressure.mem_request_setRequest] at hr
  split at hr
  · next same => exact same ▸ waits r hr
  · next other => exact ⟨asks x r hr, others x other r hr⟩

/-- R134: an abort of another measurement than the host's. -/
theorem Pressure.Ok.abort {p : Pressure} (ok : p.Ok) (other : ∀ f ∈ p.phase.flight, f.requester ≠ .link) :
    p.abort.Ok := by
  unfold Pressure.abort
  split
  · next f hf =>
    have own := ((Pressure.ok_iff_of_flight hf).1 ok).1
    have asks := (p.ok_iff.1 ok).2.2.1 f.requester _ own
    refine ok.freed hf (v := (p.request f.requester).map fun q => { q with granted := false }) ?_
      (fun x => by cases x <;> rfl) rfl ?_ (p.setRequest_history _ _)
    · rw [own]
      rintro r ⟨⟩
      refine ⟨?_, rfl⟩
      revert asks
      cases f.requester <;> exact id
    · exact (p.ok_iff.1 ok).2.1.congr (p.setRequest_record _ _) (Pressure.setRequest_link (other f hf))
  · exact ok

/-- R129 and R133: a grant to a waiting requester of a FREE channel. -/
theorem Pressure.Ok.begin {p : Pressure} (ok : p.Ok) (free : p.phase = .free) {x : Requester} {q : Request}
    (waits : p.request x = some q) (now : Nat) : (p.begin x q now).Ok := by
  obtain ⟨all, ⟨waiting, in_progress, done⟩, short⟩ := (Pressure.ok_iff_of_free (by rw [free]; rfl)).1 ok
  obtain ⟨asks, ungranted⟩ := all x q waits
  have own : (p.begin x q now).request x = some ⟨q.tap, q.slot, true⟩ :=
    (Pressure.request_driveSelector _ _ _ x).trans (Pressure.request_setRequest_self _ _ _)
  have others (y : Requester) (other : y ≠ x) : (p.begin x q now).request y = p.request y :=
    (Pressure.request_driveSelector _ _ _ y).trans (Pressure.request_setRequest_of_ne _ _ other)
  have flight : (p.begin x q now).phase.flight = some ⟨x, q.tap, q.slot, 0, 0, false⟩ := by
    unfold Pressure.begin; dsimp only; split <;> rfl
  refine (Pressure.ok_iff_of_flight flight).2 ⟨own, fun y other r hr => ?_, fun y r hr => ?_, ?_, ?_, by simp, by simp⟩
  · rw [others y other] at hr
    exact (all y r hr).2
  · by_cases same : y = x
    · subst same
      rw [own] at hr
      obtain rfl := Option.some.inj hr
      revert asks
      cases y <;> exact id
    · rw [others y same] at hr
      exact (all y r hr).1
  · by_cases link : x = .link
    · subst link
      have record : (p.begin .link q now).record = { p.record with state := .inProgress } := rfl
      have request : (p.begin .link q now).link = some ⟨q.tap, q.slot, true⟩ := own
      have was : p.record.state = .waiting := waiting.2 ⟨q, waits, ungranted⟩
      refine ⟨by simp [record, request], by simp [record, request], ?_⟩
      simpa [record, was] using done
    · have record : (p.begin x q now).record = p.record := if_neg link
      exact Pressure.RecordOk.congr ⟨waiting, in_progress, done⟩ record (others .link (Ne.symm link))
  · show (pushHistory p.history x).length ≤ 2
    simp [pushHistory]; omega

/-- R135: a withdrawal, with what becomes of the LINK record. -/
theorem Pressure.Ok.withdrawn {p q : Pressure} (ok : p.Ok) (x : Requester)
    (requests : ∀ y, q.request y = (p.setRequest x none).request y) (phase : q.phase = (p.withdraw x).phase)
    (record : q.RecordOk) (history : q.history = p.history) : q.Ok := by
  have withdrawn : (p.withdraw x).phase = if p.phase.flight.any (·.requester = x) then .free else p.phase := by
    rw [p.withdraw_eq]
  rw [withdrawn] at phase
  by_cases own : ∃ f, p.phase.flight = some f ∧ f.requester = x
  · obtain ⟨f, hf, rfl⟩ := own
    exact ok.freed hf (v := none) (by simp) requests (by simpa [hf] using phase) record history
  · have idle : ∀ f ∈ p.phase.flight, f.requester ≠ x := fun f hf same => own ⟨f, hf, same⟩
    refine ok.requested idle (v := none) (by simp) requests ?_ record history
    rwa [if_neg (by simpa [Option.any_eq_true] using idle)] at phase

/-- R135: the withdrawal of a request of another requester than LINK. -/
theorem Pressure.Ok.withdraw {p : Pressure} (ok : p.Ok) {x : Requester} (other : x ≠ .link) : (p.withdraw x).Ok := by
  have eq := p.withdraw_eq x
  refine ok.withdrawn x (fun y => ?_) rfl ?_ ?_
  · rw [eq]; cases y <;> rfl
  · refine (p.ok_iff.1 ok).2.1.congr ?_ ?_
    · rw [eq]; exact p.setRequest_record x none
    · rw [eq]; exact Pressure.setRequest_link other
  · rw [eq]; exact p.setRequest_history x none

/-- R139: the LINK record is DONE exactly while it holds a result, and so holds none while its request is outstanding. -/
theorem Pressure.Ok.no_result {p : Pressure} (ok : p.Ok) (outstanding : p.link.isSome = true) :
    p.record.result = none := by
  obtain ⟨waiting, in_progress, done⟩ := (p.ok_iff.1 ok).2.1
  obtain ⟨q, hq⟩ := Option.isSome_iff_exists.1 outstanding
  have undone : p.record.state ≠ .done := by
    cases granted : q.granted with
    | false => simp [waiting.2 ⟨q, hq, granted⟩]
    | true => simp [in_progress.2 ⟨q, hq, granted⟩]
  simpa using mt done.2 undone

/-- R140: the LINK record has a request under way exactly while there is one. -/
theorem Pressure.Ok.busy_iff {p : Pressure} (ok : p.Ok) : p.record.state.busy = true ↔ p.link.isSome = true := by
  obtain ⟨waiting, in_progress, -⟩ := (p.ok_iff.1 ok).2.1
  constructor
  · intro busy
    have : p.record.state = .waiting ∨ p.record.state = .inProgress := by
      revert busy; cases p.record.state <;> simp [LinkState.busy]
    rcases this with state | state
    · obtain ⟨q, hq, -⟩ := waiting.1 state
      exact Option.isSome_iff_exists.2 ⟨q, hq⟩
    · obtain ⟨q, hq, -⟩ := in_progress.1 state
      exact Option.isSome_iff_exists.2 ⟨q, hq⟩
  · intro outstanding
    obtain ⟨q, hq⟩ := Option.isSome_iff_exists.1 outstanding
    cases granted : q.granted with
    | false => rw [waiting.2 ⟨q, hq, granted⟩]; rfl
    | true => rw [in_progress.2 ⟨q, hq, granted⟩]; rfl

/-- R135 and R141: the withdrawal of an outstanding LINK request, its record ABORTED. -/
theorem Pressure.Ok.abortLink {p : Pressure} (ok : p.Ok) (outstanding : p.link.isSome = true) (cause : AbortCause) :
    Pressure.Ok { p.withdraw .link with record := { p.record with state := .aborted, cause := some cause } } := by
  refine ok.withdrawn .link (fun y => ?_) rfl ?_ ?_
  · rw [p.withdraw_link]; cases y <;> rfl
  · rw [p.withdraw_link]
    exact ⟨by simp, by simp, by simp [ok.no_result outstanding]⟩
  · rw [p.withdraw_link]

/-- R140: an accepted MEASURE files the LINK request with its record WAITING. -/
theorem Pressure.Ok.measured {p : Pressure} (ok : p.Ok) (absent : p.link = none) (t : Tap) :
    Pressure.Ok { p.file .link t none with record := ⟨.waiting, some t, none, none⟩ } := by
  have filed : p.file .link t none = p.setRequest .link (some ⟨t, none, false⟩) := by
    simp [Pressure.file, Pressure.request, absent]
  rw [filed]
  refine ok.requested (x := .link) (v := some ⟨t, none, false⟩) (fun f hf same => ?_) ?_ (fun y => by cases y <;> rfl)
    rfl ?_ rfl
  · have own := ((Pressure.ok_iff_of_flight hf).1 ok).1
    rw [same, show p.request .link = none from absent] at own
    simp at own
  · rintro r ⟨⟩; exact ⟨trivial, rfl⟩
  · exact ⟨by simp [Pressure.setRequest], by simp [Pressure.setRequest], by simp⟩

/-! ### The readings of a measurement -/

/-- R130: the measurement goes on with the same requester, tap and slot. -/
theorem Pressure.Ok.sampled {p : Pressure} (ok : p.Ok) {f g : Flight} (busy : p.phase.flight = some f)
    (same : g.requester = f.requester ∧ g.tap = f.tap ∧ g.slot = f.slot) (few : g.count < 8)
    (bounded : g.sum ≤ 4999 * g.count) : Pressure.Ok { p with phase := .sample g } := by
  obtain ⟨own, others, asks, record, history, -⟩ := (Pressure.ok_iff_of_flight busy).1 ok
  obtain ⟨requester, tap, slot⟩ := same
  refine (Pressure.ok_iff_of_flight (f := g) rfl).2 ⟨?_, fun x other q hq => ?_, fun x q hq => ?_, record, history, few, bounded⟩
  · rw [requester, tap, slot, ← own]; cases f.requester <;> rfl
  · exact others x (requester ▸ other) q (by revert hq; cases x <;> exact id)
  · exact asks x q (by revert hq; cases x <;> exact id)

theorem Flight.add_same (f : Flight) (conversion : Int) :
    (f.add conversion).requester = f.requester ∧ (f.add conversion).tap = f.tap
      ∧ (f.add conversion).slot = f.slot := by
  unfold Flight.add; split <;> exact ⟨rfl, rfl, rfl⟩

theorem Flight.add_bounded {f : Flight} (bounded : f.sum ≤ 4999 * f.count) (conversion : Int) :
    (f.add conversion).sum ≤ 4999 * (f.add conversion).count := by
  unfold Flight.add
  split
  · dsimp only; omega
  · dsimp only; omega

/-! ### The channel in the part -/

/-- R132: the LINK gate is always open, so that no abort meets the host's measurement. -/
theorem State.judgeGates_ok {s : State} (ok : s.pressure.Ok) : s.judgeGates.pressure.Ok := by
  unfold State.judgeGates
  split
  · next f hf =>
    split
    · exact ok
    · next closed =>
      refine ok.abort fun g hg link => closed ?_
      rw [Option.some.inj (hf.symm.trans hg), link]
      rfl
  · exact ok

/-- R133: what is granted is waiting. -/
theorem State.grant_ok {s : State} (ok : s.pressure.Ok) : s.grant.pressure.Ok := by
  unfold State.grant
  split
  · next x free _ =>
    split
    · next q waits => exact ok.begin free waits _
    · exact ok
  · exact ok

theorem State.channelTail_ok {s : State} (ok : s.pressure.Ok) : s.channelTail.pressure.Ok :=
  State.grant_ok (State.judgeGates_ok ok)

/-- What a following of the channel leaves of the LINK slot. -/
theorem Pressure.FollowedBy.link_isSome {p q : Pressure} (h : p.FollowedBy q) : q.link.isSome = p.link.isSome := h.2 .link

/-- R133 and R134: the end of an event that bears on the gates is a move of the channel. -/
theorem State.channelTail_move (s : State) : s.Move s.channelTail := by
  obtain ⟨q, eq, followed, -⟩ := s.channelTail_spec
  have kept : s.pressure.Ok → q.Ok := fun ok => by
    have := State.channelTail_ok ok
    rwa [eq] at this
  rw [eq]
  exact .pressure q kept fun outstanding => .inl (followed.link_isSome ▸ outstanding)

theorem State.grant_move (s : State) : s.Move s.grant := by
  obtain ⟨q, eq, followed⟩ := s.grant_spec
  have kept : s.pressure.Ok → q.Ok := fun ok => by
    have := State.grant_ok ok
    rwa [eq] at this
  rw [eq]
  exact .pressure q kept fun outstanding => .inl (followed.link_isSome ▸ outstanding)

theorem State.Moves.channelTail {s t : State} (h : s.Moves t) : s.Moves t.channelTail := h.tail t.channelTail_move

end Sys2Proof.Machine

/-! PROOFS. The channels, the stations and the settings store: what each of their operations keeps (R7 to R10, R51 to R60, R193 to
R197). -/

namespace Sys2Proof.Machine

/-! ### Analog channels -/

theorem Channel.afterReset_ok : Channel.afterReset.Ok := by decide

/-- R7, R8 and R9. -/
theorem Channel.take_ok {x : Channel} (ok : x.Ok) (good : Option Int) : (x.take good).Ok := by
  cases good with
  | some v => simp [Channel.Ok, Channel.usable]
  | none =>
    obtain ⟨short, running, usable, last, absent⟩ := ok
    rcases hs : x.status with _ | _ | _ | _
    · rw [Channel.take_none_of_pending hs]
      simp [Channel.Ok, Channel.usable]
    · rw [Channel.take_none_of_valid hs]
      simpa [Channel.Ok, Channel.usable, hs] using And.intro usable last
    · rw [Channel.take_none_of_held_or_invalid (.inl hs)]
      exact ⟨short, running, usable, last, absent⟩
    · rw [Channel.take_none_of_held_or_invalid (.inr hs)]
      exact ⟨short, running, usable, last, absent⟩

/-- R10. -/
theorem Channel.expire_ok {x : Channel} (ok : x.Ok) : x.expire.Ok := by
  by_cases held : x.status = .held
  · rw [Channel.expire_of_held held]; simp [Channel.Ok, Channel.usable]
  · rw [Channel.expire_of_not_held held]; exact ok

theorem countDown_le (n : Nat) : countDown n ≤ n := by unfold countDown; split <;> omega

theorem countDown_pos {n : Nat} : 0 < countDown n ↔ 0 < n := by unfold countDown; split <;> omega

/-- R9: a running hold timer stops at its event alone. -/
theorem Channel.tickSecond_ok {x : Channel} (ok : x.Ok) : x.tickSecond.Ok := by
  obtain ⟨short, running, usable, last, absent⟩ := ok
  exact ⟨(countDown_le _).trans short, countDown_pos.trans running, usable, last, absent⟩

theorem Sensing.ChannelsOk.setChannel {x : Sensing} (ok : x.ChannelsOk) {c : AnalogChannel} {v : Channel} (hv : v.Ok) :
    (x.setChannel c v).ChannelsOk := by
  intro d
  by_cases same : d = c
  · subst same; simpa using hv
  · rw [Sensing.channel_setChannel_of_ne x v same]; exact ok d

theorem Sensing.ChannelsOk.tickSecond {x : Sensing} (ok : x.ChannelsOk) : x.tickSecond.ChannelsOk := by
  intro c
  cases c with
  | oa => exact Channel.tickSecond_ok (ok .oa)
  | sa => exact Channel.tickSecond_ok (ok .sa)
  | ea => exact Channel.tickSecond_ok (ok .ea)
  | eha => exact Channel.tickSecond_ok (ok .eha)
  | outdoorRh => exact Channel.tickSecond_ok (ok .outdoorRh)
  | extractRh => exact Channel.tickSecond_ok (ok .extractRh)

theorem Sensing.channel_setContact (x : Sensing) (c : Contact) (v : ContactInput) (d : AnalogChannel) :
    (x.setContact c v).channel d = x.channel d := by cases c <;> cases d <;> rfl

theorem Sensing.channel_setTach (x : Sensing) (f : FanId) (v : TachInput) (d : AnalogChannel) :
    (x.setTach f v).channel d = x.channel d := by cases f <;> cases d <;> rfl

theorem State.setContact_move (s : State) (c : Contact) (v : ContactInput) :
    s.Move { s with sensing := s.sensing.setContact c v } :=
  .sensing _ fun ok d => (Sensing.channel_setContact s.sensing c v d).symm ▸ ok d

theorem State.setTach_move (s : State) (f : FanId) (v : TachInput) :
    s.Move { s with sensing := s.sensing.setTach f v } :=
  .sensing _ fun ok d => (Sensing.channel_setTach s.sensing f v d).symm ▸ ok d

theorem State.moveChannel_moves (s : State) (c : AnalogChannel) (v : Channel) (ok : (s.sensing.channel c).Ok → v.Ok) :
    s.Moves (s.moveChannel c v) :=
  (State.Move.sensing (s.sensing.setChannel c v) fun channels => channels.setChannel (ok (channels c))).moves.notifyIf _ _

/-! ### Stations -/

theorem Station.fresh_ok (x : StationState) : (Station.fresh x).Ok := by
  simp [Station.Ok, Station.fresh, Reading.invalid]

theorem Bus.afterReset_ok (enabled : BitVec 6) : (Bus.afterReset enabled).Ok := by
  refine ⟨fun n => ?_, trivial⟩
  simp only [Bus.afterReset, Fin.getElem_fin, Vector.getElem_ofFn]
  exact ⟨Station.fresh_ok _, fun _ => rfl⟩

/-- The station of the exchange in flight is served. -/
def Exchange.Served (x : Exchange) (served : StationId → Prop) : Prop :=
  match x with
  | .sending n _ _ | .window n _ _ => served n
  | .idle | .void _ _ => True

theorem Exchange.Served.imp {x : Exchange} {a b : StationId → Prop} (h : x.Served a) (imp : ∀ n, a n → b n) :
    x.Served b := by
  cases x with
  | idle => trivial
  | void _ _ => trivial
  | sending n _ _ => exact imp n h
  | window n _ _ => exact imp n h

/-- A station's record, with the mark of R53. -/
def Station.WithMark (x : Station) : Prop := x.Ok ∧ (x.state = .unconfigured → x.marked = false)

theorem Bus.ok_iff (b : Bus) :
    b.Ok ↔ (∀ n : StationId, b.stations[n].WithMark)
      ∧ b.exchange.Served fun n => b.stations[n].state ≠ .unconfigured := by
  unfold Bus.Ok Exchange.Served Station.WithMark
  cases b.exchange <;> exact Iff.rfl

theorem stations_set (v : Vector Station 6) (n m : StationId) (x : Station) :
    (v.set n x)[m] = if m = n then x else v[m] := by
  by_cases same : m = n
  · subst same; simp
  · have : n.val ≠ m.val := fun h => same (Fin.ext h.symm)
    simp [same, this]

/-- A station's record is replaced by one that is served where it was. -/
theorem Bus.Ok.setStation {b : Bus} (ok : b.Ok) {n : StationId} {x : Station} {e : Exchange} (hx : x.WithMark)
    (served : b.stations[n].state ≠ .unconfigured → x.state ≠ .unconfigured)
    (exchange : e.Served fun m => b.stations[m].state ≠ .unconfigured) :
    Bus.Ok { stations := b.stations.set n x, exchange := e } := by
  rw [Bus.ok_iff] at ok ⊢
  refine ⟨fun m => ?_, exchange.imp fun m hm => ?_⟩
  · rw [stations_set]; split
    · exact hx
    · exact ok.1 m
  · show (b.stations.set n x)[m].state ≠ .unconfigured
    rw [stations_set]; split
    · next same => exact served (same ▸ hm)
    · exact hm

theorem Bus.Ok.setExchange {b : Bus} (ok : b.Ok) {e : Exchange}
    (exchange : e.Served fun m => b.stations[m].state ≠ .unconfigured) : Bus.Ok { b with exchange := e } :=
  b.ok_iff.1 ok |>.1 |> fun stations => (Bus.ok_iff _).2 ⟨stations, exchange⟩

/-- The stations change together, each served as before. -/
theorem Bus.Ok.eachStation {b : Bus} (ok : b.Ok) {f : Station → Station} (kept : ∀ x : Station, x.WithMark → (f x).WithMark)
    (served : ∀ x : Station, (f x).state = x.state) :
    Bus.Ok { b with stations := Machine.eachStation f b.stations } := by
  rw [Bus.ok_iff] at ok ⊢
  refine ⟨fun n => ?_, ok.2.imp fun n hn => ?_⟩
  · rw [eachStation_getElem]; exact kept _ (ok.1 n)
  · show (Machine.eachStation f b.stations)[n].state ≠ .unconfigured
    rw [eachStation_getElem, served]; exact hn

/-- R53: a station that is not served is not due. -/
theorem Station.due_of_unconfigured {x : Station} (h : x.state = .unconfigured) (now : Nat) : x.due now = false := by
  simp [Station.due, h]

/-- R53: a slot polls a station that is served. -/
theorem Bus.nextPoll_served {b : Bus} {n : StationId} (h : b.nextPoll = some n) :
    b.stations[n].state ≠ .unconfigured := by
  unfold Bus.nextPoll at h
  rw [Option.or_eq_some_iff] at h
  rcases h with h | ⟨-, h⟩ <;> have := List.find?_some h <;> simp [Station.markedIn] at this
  · simp [this]
  · rcases this with this | this <;> simp [this]

/-- R51: the exchange goes on with the same station. -/
theorem Exchange.Served.endPoll {x : Exchange} {a : StationId → Prop} (h : x.Served a) : x.endPoll.Served a := by
  cases x <;> exact h

theorem Exchange.Served.beginReply {x : Exchange} {a : StationId → Prop} (h : x.Served a) : x.beginReply.Served a := by
  cases x <;> exact h

theorem Exchange.Served.tickMs {x : Exchange} {a : StationId → Prop} (h : x.Served a) : x.tickMs.Served a := by
  cases x <;> exact h

/-- R56: the record of a served station after a good reply. -/
theorem Station.good_withMark {x : Station} (served : x.state ≠ .unconfigured) (r : Report) (now : Nat) :
    (x.good r now).WithMark ∧ (x.good r now).state ≠ .unconfigured := by
  have online : (x.good r now).state = .online := StationState.answered_of_served served
  have taken (fault : Bool) (v : Option Int) : (Reading.take fault v).status ≠ .held := by
    unfold Reading.take; split <;> simp [Reading.invalid]
  exact ⟨⟨⟨by simp [Station.good], by simp [Station.good], fun _ => by simp [Station.good],
    fun _ => ⟨rfl, taken _ _, taken _ _⟩, fun other => absurd online other, fun _ => ⟨taken _ _, taken _ _⟩⟩,
    fun not => by simp [online] at not⟩, by simp [online]⟩

/-- R57 and R60: a reading is HELD after a loss exactly where it was VALID, and so the hold timer runs. -/
theorem Reading.held_status {r : Reading} (unheld : r.status ≠ .held) : r.held.status = .held ↔ r.status = .valid := by
  unfold Reading.held
  split
  · next valid => simp [valid]
  · next other => simp [other, unheld]

/-- R57: the record after a miss. -/
theorem Station.miss_withMark {x : Station} (ok : x.WithMark) :
    x.miss.WithMark ∧ (x.state ≠ .unconfigured → x.miss.state ≠ .unconfigured) := by
  obtain ⟨⟨misses, hold, few, unheld, presses, stopped⟩, mark⟩ := ok
  unfold Station.miss
  dsimp only
  split
  · next third =>
    obtain ⟨-, temperature, humidity⟩ := unheld (by simp [third.1])
    refine ⟨⟨⟨by simp [Station.lose], ?_, by simp [Station.lose], by simp [Station.lose], by simp [Station.lose], ?_⟩,
      by simp [Station.lose]⟩, by simp [Station.lose]⟩
    · simp only [Station.lose]; split <;> omega
    · intro zero
      simp only [Station.lose] at zero ⊢
      rw [ne_eq, ne_eq, Reading.held_status temperature, Reading.held_status humidity, ← not_or]
      intro valid
      rw [if_pos valid] at zero
      omega
  · next kept =>
    refine ⟨⟨⟨by dsimp only; omega, hold, fun online => ?_, unheld, presses, stopped⟩, mark⟩, id⟩
    by_contra many
    exact kept ⟨online, by simpa using many⟩

/-- R60: the hold timer's running out. -/
theorem Station.holdExpired_withMark {x : Station} (ok : x.WithMark) :
    Station.WithMark { x with hold := 0, temperature := x.temperature.expire, humidity := x.humidity.expire } := by
  obtain ⟨⟨misses, -, few, -, presses, -⟩, mark⟩ := ok
  have ended (r : Reading) : r.expire.status ≠ .held := by
    unfold Reading.expire; split
    · simp [Reading.invalid]
    · assumption
  exact ⟨⟨misses, by simp, few, fun _ => ⟨rfl, ended _, ended _⟩, presses, fun _ => ⟨ended _, ended _⟩⟩, mark⟩

/-- R58: the record of a station that is, or is not, in the new set. -/
theorem Station.enable_withMark {x : Station} (ok : x.WithMark) (enabled : Bool) :
    (x.enable enabled).WithMark ∧ (enabled = true → (x.enable enabled).state ≠ .unconfigured) := by
  have fresh : (Station.fresh .unconfigured).WithMark := ⟨Station.fresh_ok _, fun _ => rfl⟩
  have marked : Station.WithMark { Station.fresh .seeking with marked := true } :=
    ⟨by simp [Station.Ok, Station.fresh, Reading.invalid], by simp [Station.fresh]⟩
  unfold Station.enable
  split
  · split
    · exact ⟨marked, fun _ => by simp [Station.fresh]⟩
    · next served => exact ⟨ok, fun _ => served⟩
  · next out =>
    split
    · exact ⟨ok, fun on => absurd on out⟩
    · exact ⟨fresh, fun on => absurd on out⟩

/-- R58: the bus after a change of the set. -/
theorem Bus.Ok.enable {b : Bus} (ok : b.Ok) (enabled : BitVec 6) :
    Bus.Ok
      { stations := Vector.ofFn fun n => b.stations[n].enable (enabled.getLsbD n)
        exchange := b.exchange.enable enabled } := by
  rw [Bus.ok_iff] at ok ⊢
  have at_station (n : StationId) :
      (Vector.ofFn fun n : StationId => b.stations[n].enable (enabled.getLsbD n))[n] =
        b.stations[n].enable (enabled.getLsbD n) := by simp
  refine ⟨fun n => ?_, ?_⟩
  · rw [at_station]; exact (Station.enable_withMark (ok.1 n) _).1
  · have stays (n : StationId) (on : enabled.getLsbD n = true) :
        (Vector.ofFn fun n : StationId => b.stations[n].enable (enabled.getLsbD n))[n].state ≠ .unconfigured := by
      rw [at_station]; exact (Station.enable_withMark (ok.1 n) _).2 on
    show (b.exchange.enable enabled).Served _
    cases b.exchange with
    | idle => trivial
    | void _ _ => trivial
    | sending n frame t =>
      by_cases on : enabled.getLsbD n = true
      · simp only [Exchange.enable, on, if_true]; exact stays n on
      · simp only [Exchange.enable, if_neg on, Exchange.Served]
    | window n t begun =>
      by_cases on : enabled.getLsbD n = true
      · simp only [Exchange.enable, on, if_true]; exact stays n on
      · simp only [Exchange.enable, if_neg on, Exchange.Served]

theorem Bus.Ok.tickSecond {b : Bus} (ok : b.Ok) : b.tickSecond.Ok := by
  refine ok.eachStation (fun x hx => ?_) fun _ => rfl
  obtain ⟨⟨misses, hold, few, unheld, presses, stopped⟩, mark⟩ := hx
  have zero : countDown x.hold = 0 ↔ x.hold = 0 := by have := @countDown_pos x.hold; omega
  exact ⟨⟨misses, (countDown_le _).trans hold, few, fun h => ⟨zero.2 (unheld h).1, (unheld h).2⟩, presses,
    fun h => stopped (zero.1 h)⟩, mark⟩

/-- A change of the enabled set moves the bus and its notice. -/
theorem State.enableStations_moves (s : State) (enabled : BitVec 6) : s.Moves (s.enableStations enabled) :=
  (State.Move.bus _ fun ok => ok.enable enabled).moves.notifyIf _ _

theorem State.setExchange_move {s : State} {x : Exchange}
    (served : ∀ a, s.bus.exchange.Served a → x.Served a) : s.Move (s.setExchange x) :=
  .bus _ fun ok => ok.setExchange (served _ (s.bus.ok_iff.1 ok).2)

/-- R53: the poll of a served station. -/
theorem State.poll_move {s : State} {n : StationId} (served : s.bus.stations[n].state ≠ .unconfigured) :
    s.Move (s.poll n) :=
  .bus _ fun ok =>
    ok.setStation ⟨((s.bus.ok_iff.1 ok).1 n).1, fun _ => rfl⟩ (fun h => h) served

/-- R57: a judged miss, of which the exchange ends. -/
theorem State.missReply_moves (s : State) (n : StationId) : s.Moves ((s.setExchange .idle).missReply n) :=
  have move : s.Move ((s.setExchange .idle).setStation n s.bus.stations[n].miss) :=
    .bus _ fun ok =>
      ok.setStation (Station.miss_withMark ((s.bus.ok_iff.1 ok).1 n)).1
        (Station.miss_withMark ((s.bus.ok_iff.1 ok).1 n)).2 trivial
  move.moves.notifyIf _ _

/-- R51: the judgement of the exchange as a miss. -/
theorem State.judgeMiss_moves (s : State) : s.Moves s.judgeMiss := by
  unfold State.judgeMiss
  split
  · exact s.missReply_moves _
  · exact .refl
  · exact .refl
  · exact .refl

/-! ### The store -/

theorem Store.change_eq (t : Store) (b : Block) :
    t.change b = t ∨ t.change b = { t with queue := t.queue ++ [b] } ∧ b ∉ t.queue := by
  unfold Store.change
  split
  · exact .inl rfl
  · next h => exact .inr ⟨rfl, by simp_all⟩

theorem Store.change_ok {t : Store} (ok : t.Ok) (b : Block) : (t.change b).Ok := by
  rcases t.change_eq b with h | ⟨h, -⟩ <;> rw [h] <;> exact ok

theorem Store.change_queueOk {t : Store} (ok : t.QueueOk) (b : Block) : (t.change b).QueueOk := by
  rcases t.change_eq b with h | ⟨h, absent⟩ <;> rw [h]
  · exact ok
  · exact List.nodup_append.2 ⟨ok, by simp, by simpa using fun a ha (h : a = b) => absent (h ▸ ha)⟩

theorem State.Moves.changed {s t : State} (h : s.Moves t) (b : Block) : s.Moves (t.changed b) :=
  h.tail (.store _ (fun ok => Store.change_ok ok.2.2.2 b) fun ok => Store.change_queueOk ok b)

theorem State.Moves.changedIf {s t : State} (h : s.Moves t) (c : Bool) (b : Block) : s.Moves (t.changedIf c b) := by
  unfold State.changedIf
  split
  · exact h.changed b
  · exact h

theorem Params.default_ok : Params.default.Ok := by decide

theorem Calibrations.default_ok : Calibrations.default.Ok := by decide

theorem Block.defaultImage_ok (b : Block) : b.defaultImage.ok = true := by
  cases b with
  | parameters => exact decide_eq_true Params.default_ok
  | calibrations => exact decide_eq_true Calibrations.default_ok
  | filterRecords => rfl
  | exchangerBaseline => rfl
  | hours => rfl
  | storedMode => rfl

/-- R194: what a write started now puts into the memory. -/
theorem State.image_ok {s : State} (ok : s.SettingsOk) (b : Block) : (s.image b).ok = true := by
  obtain ⟨params, cals, stored, -⟩ := ok
  cases b with
  | parameters => exact decide_eq_true params
  | calibrations => exact decide_eq_true cals
  | filterRecords => rfl
  | exchangerBaseline => rfl
  | hours => rfl
  | storedMode => exact stored

theorem Store.Ok.put {t : Store} (ok : t.Ok) {x : Image} (hx : x.ok = true) : (t.put x).Ok := by
  obtain ⟨params, cals, mode, writing⟩ := ok
  cases x with
  | parameters p => exact ⟨by rintro q ⟨⟩; exact of_decide_eq_true hx, cals, mode, writing⟩
  | calibrations c => exact ⟨params, by rintro q ⟨⟩; exact of_decide_eq_true hx, mode, writing⟩
  | filterRecords _ => exact ⟨params, cals, mode, writing⟩
  | exchangerBaseline _ => exact ⟨params, cals, mode, writing⟩
  | hours _ => exact ⟨params, cals, mode, writing⟩
  | storedMode m => exact ⟨params, cals, by rintro q ⟨⟩; exact hx, writing⟩

theorem Store.Ok.spoil {t : Store} (ok : t.Ok) (x : Image) : (t.spoil x).Ok := by
  obtain ⟨params, cals, mode, writing⟩ := ok
  cases x with
  | parameters _ => exact ⟨by rintro q ⟨⟩, cals, mode, writing⟩
  | calibrations _ => exact ⟨params, by rintro q ⟨⟩, mode, writing⟩
  | filterRecords _ => exact ⟨params, cals, mode, writing⟩
  | exchangerBaseline _ => exact ⟨params, cals, mode, writing⟩
  | hours _ => exact ⟨params, cals, mode, writing⟩
  | storedMode _ => exact ⟨params, cals, by rintro q ⟨⟩, writing⟩

theorem Store.put_queue (t : Store) (x : Image) : (t.put x).queue = t.queue := by cases x <;> rfl

theorem Store.spoil_queue (t : Store) (x : Image) : (t.spoil x).queue = t.queue := by cases x <;> rfl

/-- The write in progress ends. -/
theorem Store.Ok.unwritten {t : Store} (ok : t.Ok) : Store.Ok { t with writing := none, writeElapsed := 0 } :=
  ⟨ok.1, ok.2.1, ok.2.2.1, by simp⟩

/-- R194: a cut write leaves the store well formed. -/
theorem Store.afterCut_ok {t m : Store} (ok : t.Ok) (h : m ∈ t.afterCut) : m.Ok := by
  unfold Store.afterCut at h
  split at h
  · next x hw =>
    simp only [List.mem_cons, List.not_mem_nil, or_false] at h
    rcases h with rfl | rfl | rfl
    · exact (ok.spoil x).unwritten
    · exact ok.unwritten
    · exact (ok.put (ok.2.2.2 x hw)).unwritten
  · simp only [List.mem_cons, List.not_mem_nil, or_false] at h
    exact h ▸ ok

theorem Store.afterCut_queue {t m : Store} (h : m ∈ t.afterCut) : m.queue = t.queue := by
  unfold Store.afterCut at h
  split at h
  · next x hw =>
    simp only [List.mem_cons, List.not_mem_nil, or_false] at h
    rcases h with rfl | rfl | rfl
    · exact t.spoil_queue x
    · rfl
    · exact t.put_queue x
  · simp only [List.mem_cons, List.not_mem_nil, or_false] at h
    rw [h]

/-- R194: a cut write moves the store and draws from the free values. -/
theorem State.cutWrite_moves (s : State) (power : Bool) : s.Moves (s.cutWrite power) := by
  have store : s.Move { s with store := (s.cutWrite power).store } :=
    .store _ (fun ok => Store.afterCut_ok ok.2.2.2 (s.cutWrite_mem power))
      fun ok => by rw [Store.QueueOk, Store.afterCut_queue (s.cutWrite_mem power)]; exact ok
  rw [s.cutWrite_eq power]
  exact store.moves.aside rfl

theorem State.nextWrite_move (s : State) : s.Move { s with store := s.nextWrite } := by
  refine .store _ (fun ok => ?_) fun ok => ?_
  · obtain ⟨params, cals, mode, writing⟩ := ok.2.2.2
    unfold State.nextWrite
    split
    · exact ok.2.2.2
    · exact ⟨params, cals, mode, by rintro x ⟨⟩; exact Block.defaultImage_ok _⟩
    · exact ok.2.2.2
    · exact ⟨params, cals, mode, by rintro x ⟨⟩; exact State.image_ok ok _⟩
    · exact ok.2.2.2
  · unfold State.nextWrite
    split
    · exact ok
    · exact ok
    · exact ok
    · next h => rw [Store.QueueOk, h] at ok; exact (List.nodup_cons.1 ok).2
    · exact ok

theorem State.finish_move (s : State) : s.Move { s with store := s.store.finish } := by
  refine .store _ (fun ok => ?_) fun ok => ?_
  · unfold Store.finish
    split
    · next x hw => exact (ok.2.2.2.put (ok.2.2.2.2.2.2 x hw)).unwritten
    · exact ok.2.2.2
  · unfold Store.finish
    split
    · next x _ => show (s.store.put x).queue.Nodup; rw [s.store.put_queue x]; exact ok
    · exact ok

theorem State.beginClear_move (s : State) : s.Move { s with store := s.store.beginClear } :=
  .store _ (fun ok => ok.2.2.2) fun _ => List.nodup_nil

theorem State.cleared_move (s : State) : s.Move { s with store := s.store.cleared } := by
  refine .store _ (fun ok => ?_) fun ok => ok
  have all : ∀ l : List Block, ∀ t : Store, t.Ok → (l.foldl (fun t b => t.put b.defaultImage) t).Ok := by
    intro l
    induction l with
    | nil => exact fun _ h => h
    | cons b l ih => exact fun t h => ih _ (h.put b.defaultImage_ok)
  exact (all _ _ ok.2.2.2).unwritten

theorem State.restart_moves (s : State) (cause : ResetCause) (straps : BitVec 2) : s.Moves (s.restart cause straps) :=
  (s.cutWrite_moves _).tail (.reload cause straps)

theorem State.commandReset_moves (s : State) : s.Moves s.commandReset :=
  ((s.cutWrite_moves false).aside
    (u := { s.cutWrite false with freeCount := (s.cutWrite false).freeCount + 1 }) rfl).tail (.reload _ _)

theorem State.supplyRise_moves (s : State) (straps : BitVec 2) : s.Moves (s.supplyRise straps) := by
  unfold State.supplyRise
  split
  · exact s.restart_moves _ _
  · exact s.restart_moves _ _
  · exact State.Moves.aside .refl rfl
  · exact State.Moves.aside .refl rfl

theorem State.resetLow_moves (s : State) : s.Moves s.resetLow := by
  unfold State.resetLow
  split
  · exact (s.cutWrite_moves _).aside rfl
  · exact .refl
  · exact State.Moves.aside .refl rfl

theorem State.resetHigh_moves (s : State) (straps : BitVec 2) : s.Moves (s.resetHigh straps) := by
  unfold State.resetHigh
  split
  · exact s.restart_moves _ _
  · exact s.restart_moves _ _
  · exact State.Moves.aside .refl rfl

theorem State.supplyLoss_moves (s : State) : s.Moves s.supplyLoss := by
  unfold State.supplyLoss
  split
  · exact (s.cutWrite_moves _).aside rfl
  · exact State.Moves.aside .refl rfl
  · exact .refl

end Sys2Proof.Machine

/-! PROOFS. The demand table: what a filing, an amendment, a retirement and a second keep of it (R23 to R34). -/

namespace Sys2Proof.Machine

/-! ### Parameters in their ranges -/

theorem Param.row_mem (x : Param) : x.row ∈ paramTable ∧ x.row.param = x := by cases x <;> decide

/-- R186: a parameter lies in its range. -/
theorem Params.Ok.range {p : Params} (ok : p.Ok) (x : Param) : x.row.lo ≤ p.get x ∧ p.get x ≤ x.row.hi := by
  obtain ⟨mem, same⟩ := x.row_mem
  obtain ⟨lo, hi, -⟩ := ok x.row mem
  rw [same] at lo hi
  exact ⟨lo, hi⟩

/-- R186: a parameter whose range has no negative values. -/
theorem Params.Ok.nat_range {p : Params} (ok : p.Ok) (x : Param) (nonneg : 0 ≤ x.row.lo) :
    (p.nat x : Int) = p.get x ∧ x.row.lo.toNat ≤ p.nat x ∧ p.nat x ≤ x.row.hi.toNat := by
  obtain ⟨lo, hi⟩ := ok.range x
  unfold Params.nat
  omega

/-! ### The order of the records -/

/-- R29: a renumbering changes the numbers alone. -/
theorem renumber_map {α : Type} (f : DemandRecord → α) (unread : ∀ r n, f { r with seq := n } = f r) (n : Nat)
    (l : List DemandRecord) : (renumber n l).map f = l.map f := by
  induction l generalizing n with
  | nil => rfl
  | cons a l ih => simp [renumber, unread, ih]

theorem mem_renumber {n : Nat} {l : List DemandRecord} {r : DemandRecord} (h : r ∈ renumber n l) :
    ∃ a ∈ l, ∃ m, r = { a with seq := m } ∧ n ≤ m ∧ m < n + l.length := by
  induction l generalizing n with
  | nil => cases h
  | cons a l ih =>
    rcases List.mem_cons.1 h with rfl | h
    · exact ⟨a, by simp, n, rfl, le_refl n, by simp⟩
    · obtain ⟨b, mem, m, eq, lo, hi⟩ := ih h
      exact ⟨b, by simp [mem], m, eq, by omega, by simp only [List.length_cons]; omega⟩

/-- R29: making room changes the numbers and the counter alone. -/
theorem DemandTable.makeRoom_map {α : Type} (f : DemandRecord → α) (unread : ∀ r n, f { r with seq := n } = f r)
    (t : DemandTable) : t.makeRoom.live.map f = t.live.map f := by
  unfold DemandTable.makeRoom
  split
  · rfl
  · exact renumber_map f unread _ _

theorem DemandTable.makeRoom_rest (t : DemandTable) : t.makeRoom.gens = t.gens ∧ t.makeRoom.freeList = t.freeList := by
  unfold DemandTable.makeRoom; split <;> exact ⟨rfl, rfl⟩

/-! ### Entries -/

/-- R23 and R26: entries read the free list and the entries of the records. -/
theorem DemandTable.EntriesOk.congr {t u : DemandTable} (ok : t.EntriesOk) (free : u.freeList = t.freeList)
    (live : u.live.map DemandRecord.entry = t.live.map DemandRecord.entry) : u.EntriesOk := by
  have length : u.live.length = t.live.length := by simpa using congrArg List.length live
  rw [DemandTable.EntriesOk, free, live, length]
  exact ok

theorem DemandTable.EntriesOk.add {t : DemandTable} (ok : t.EntriesOk) (x : Draft) (now : Nat) :
    (t.add x now).EntriesOk := by
  cases free : t.freeList with
  | nil => rwa [DemandTable.add, free]
  | cons e rest =>
    rw [DemandTable.add_of_free free]
    obtain ⟨nodup, count⟩ := ok
    have entries := t.makeRoom_map DemandRecord.entry fun _ _ => rfl
    have length : t.makeRoom.live.length = t.live.length := by simpa using congrArg List.length entries
    refine ⟨?_, by simp only [List.length_append, length, List.length_singleton]; simp [free] at count; omega⟩
    have perm : (rest ++ (t.live.map DemandRecord.entry ++ [e])).Perm
        (e :: rest ++ t.live.map DemandRecord.entry) := by
      rw [← List.append_assoc]
      exact List.perm_append_singleton e _
    rw [free] at nodup
    rw [List.map_append, entries]
    exact perm.nodup_iff.2 nodup

/-- A live record in its place. -/
theorem DemandTable.placed {t : DemandTable} {r : DemandRecord} (mem : r ∈ t.live) :
    ∃ pre post, t.live = pre ++ r :: post := List.append_of_mem mem

theorem DemandTable.EntriesOk.remove {t : DemandTable} (ok : t.EntriesOk) {r : DemandRecord} (mem : r ∈ t.live) :
    (t.remove r).EntriesOk := by
  obtain ⟨pre, post, place⟩ := DemandTable.placed mem
  rw [DemandTable.remove_at ok place]
  obtain ⟨nodup, count⟩ := ok
  rw [place] at nodup count
  refine ⟨?_, by simp at count ⊢; omega⟩
  have perm : (t.freeList ++ [r.entry] ++ (pre ++ post).map DemandRecord.entry).Perm
      (t.freeList ++ (pre ++ r :: post).map DemandRecord.entry) := by
    rw [List.append_assoc, List.map_append, List.map_append, List.map_cons, List.singleton_append]
    exact List.Perm.append_left _ List.perm_middle.symm
  exact perm.nodup_iff.2 nodup

/-- What an amendment leaves of every record: its entry, generation, key and place in the order. -/
structure DemandRecord.SamePlace (r q : DemandRecord) : Prop where
  entry : q.entry = r.entry
  gen : q.gen = r.gen
  key : q.key = r.key
  seq : q.seq = r.seq

theorem DemandRecord.SamePlace.origin {r q : DemandRecord} (h : r.SamePlace q) : q.origin = r.origin :=
  congrArg Prod.fst h.key

theorem DemandRecord.SamePlace.kind {r q : DemandRecord} (h : r.SamePlace q) : q.kind = r.kind :=
  congrArg (·.2.1) h.key

theorem DemandRecord.SamePlace.tag {r q : DemandRecord} (h : r.SamePlace q) : q.tag = r.tag :=
  congrArg (·.2.2) h.key

/-- What an amendment leaves, it leaves in the whole table. -/
theorem DemandTable.amend_map {α : Type} (t : DemandTable) (r : DemandRecord) {f : DemandRecord → DemandRecord}
    (g : DemandRecord → α) (same : ∀ x ∈ t.live, x.entry = r.entry → g (f x) = g x) :
    (t.amend r f).live.map g = t.live.map g := by
  unfold DemandTable.amend
  rw [List.map_map]
  refine List.map_congr_left fun x hx => ?_
  show g (if x.entry = r.entry then f x else x) = g x
  split
  · next here => exact same x hx here
  · rfl

theorem DemandTable.EntriesOk.amend {t : DemandTable} (ok : t.EntriesOk) (r : DemandRecord)
    {f : DemandRecord → DemandRecord} (place : ∀ x : DemandRecord, x.SamePlace (f x)) : (t.amend r f).EntriesOk :=
  ok.congr rfl (t.amend_map r _ fun x _ _ => (place x).entry)

/-! ### The whole table -/

/-- R28 and R30: what a filing may bring. -/
structure Draft.Ok (x : Draft) : Prop where
  level : x.level ≤ 100
  duration : x.duration.admits x.duration.start = true
  tag : x.tag.isSome = true ↔ x.origin = .link
  kind : x.origin ≠ .link → x.kind = .boost
  held : x.held = true → x.origin = .humidity
  humidity : x.origin = .humidity → x.duration = .absent
  indefinite : x.duration = .indefinite → x.origin = .link

/-- R30: the key of the record that a filing makes. -/
def Draft.key (x : Draft) : Origin × Kind × Option Byte := (x.origin, x.kind, x.tag)

theorem nextGeneration_range {g : Nat} (h : g ≤ 255) : 1 ≤ nextGeneration g ∧ nextGeneration g ≤ 255 := by
  unfold nextGeneration; split <;> omega

theorem DemandTable.linkCount_congr {t u : DemandTable}
    (h : u.live.map DemandRecord.origin = t.live.map DemandRecord.origin) : u.linkCount = t.linkCount := by
  have count (v : DemandTable) :
      v.linkCount = (v.live.map DemandRecord.origin).countP fun o => o = Origin.link := by
    rw [List.countP_map]; rfl
  rw [count, count, h]

/-- R29: a table with room for one more number. -/
theorem DemandTable.Ok.makeRoom {t : DemandTable} (ok : t.Ok) : t.makeRoom.Ok ∧ t.makeRoom.counter < maxCounter := by
  by_cases room : t.counter < maxCounter
  · rw [DemandTable.makeRoom_of_lt room]; exact ⟨ok, room⟩
  · rw [DemandTable.makeRoom_of_ge (not_lt.1 room)]
    obtain ⟨entries, records, gens, -, keys, quota, -⟩ := ok
    have few : t.live.length ≤ 24 := by have := entries.2; omega
    refine ⟨⟨entries.congr rfl (renumber_map _ (fun _ _ => rfl) _ _), fun r hr => ?_, gens, ?_, ?_, ?_, ?_⟩, ?_⟩
    · obtain ⟨a, mem, m, rfl, lo, hi⟩ := mem_renumber hr
      obtain ⟨a_ok, gen, -⟩ := records a mem
      exact ⟨a_ok, gen, lo, by dsimp only; omega⟩
    · have := List.pairwise_lt_range' (s := 1) (n := t.live.length)
      rw [← renumber_seq, List.pairwise_map] at this
      exact this
    · rw [show (renumber 1 t.live).map DemandRecord.key = _ from renumber_map _ (fun _ _ => rfl) _ _]
      exact keys
    · rw [DemandTable.linkCount_congr (t := t) (renumber_map _ (fun _ _ => rfl) _ _)]
      exact quota
    · show t.live.length ≤ maxCounter; unfold maxCounter; omega
    · show t.live.length < maxCounter; unfold maxCounter; omega

/-- R24 to R31: a filing of a key that no record has. -/
theorem DemandTable.Ok.add {t : DemandTable} (ok : t.Ok) {x : Draft} (hx : x.Ok)
    (new : ∀ r ∈ t.live, r.key ≠ x.key) (quota : x.origin = .link → t.linkCount < 16) (now : Nat) :
    (t.add x now).Ok := by
  have entries := ok.1.add x now
  cases free : t.freeList with
  | nil => rwa [DemandTable.add, free]
  | cons e rest =>
    rw [DemandTable.add_of_free free] at entries ⊢
    obtain ⟨⟨room_entries, records, -, order, keys, few, -⟩, room⟩ := ok.makeRoom
    obtain ⟨gens_eq, free_eq⟩ := t.makeRoom_rest
    have old_entry (r : DemandRecord) (hr : r ∈ t.makeRoom.live) : r.entry ≠ e := by
      intro same
      have apart := (List.nodup_append.1 room_entries.1).2.2
      exact apart e (by rw [free_eq, free]; simp) r.entry (List.mem_map_of_mem hr) same.symm
    obtain ⟨gen_lo, gen_hi⟩ := nextGeneration_range (ok.2.2.1 t.gens[e] (by simp))
    refine ⟨entries, fun r hr => ?_, fun g hg => ?_, ?_, ?_, ?_, by dsimp only; omega⟩
    · rcases List.mem_append.1 hr with hr | hr
      · obtain ⟨r_ok, gen, lo, hi⟩ := records r hr
        refine ⟨r_ok, ?_, lo, by dsimp only; omega⟩
        have other : e.val ≠ r.entry.val := fun h => old_entry r hr (Fin.ext h.symm)
        rw [← gen, gens_eq]
        simp [other]
      · obtain rfl := List.mem_singleton.1 hr
        exact ⟨⟨gen_lo, gen_hi, hx.level, hx.duration, hx.tag, hx.kind, hx.held, hx.humidity, hx.indefinite⟩,
          by simp, by simp, le_refl _⟩
    · rw [Vector.toList_set] at hg
      rcases List.mem_or_eq_of_mem_set hg with h | h
      · exact ok.2.2.1 g h
      · exact h ▸ gen_hi
    · refine List.pairwise_append.2 ⟨order, List.pairwise_singleton _ _, fun a ha b hb => ?_⟩
      obtain rfl := List.mem_singleton.1 hb
      have := (records a ha).2.2.2
      dsimp only; omega
    · have room_keys := t.makeRoom_map DemandRecord.key fun _ _ => rfl
      rw [List.map_append, room_keys]
      rw [room_keys] at keys
      refine List.nodup_append.2 ⟨keys, List.nodup_singleton _, fun a ha b hb => ?_⟩
      obtain ⟨r, hr, rfl⟩ := List.mem_map.1 ha
      obtain rfl := List.mem_singleton.1 hb
      exact new r hr
    · have room_count : t.makeRoom.linkCount = t.linkCount :=
        DemandTable.linkCount_congr (t.makeRoom_map DemandRecord.origin fun _ _ => rfl)
      rw [DemandTable.linkCount] at room_count few ⊢
      rw [List.countP_append]
      by_cases link : x.origin = .link
      · have := quota link
        simp [link]; omega
      · simpa [link] using few

theorem DemandTable.Ok.remove {t : DemandTable} (ok : t.Ok) {r : DemandRecord} (mem : r ∈ t.live) : (t.remove r).Ok := by
  have entries := ok.1.remove mem
  obtain ⟨-, records, gens, order, keys, quota, counter⟩ := ok
  have sub : (t.remove r).live.Sublist t.live := List.filter_sublist
  exact ⟨entries, fun x hx => records x (sub.subset hx), gens, order.sublist sub, keys.sublist (sub.map _),
    (sub.countP_le).trans quota, counter⟩

theorem DemandTable.Ok.amend {t : DemandTable} (ok : t.Ok) {r : DemandRecord} (mem : r ∈ t.live)
    {f : DemandRecord → DemandRecord} (place : ∀ x : DemandRecord, x.SamePlace (f x)) (hr : (f r).Ok) :
    (t.amend r f).Ok := by
  have entries := ok.1.amend r place
  have seqs : (t.amend r f).live.map DemandRecord.seq = _ := t.amend_map r _ fun x _ _ => (place x).seq
  have keys_eq : (t.amend r f).live.map DemandRecord.key = _ := t.amend_map r _ fun x _ _ => (place x).key
  have inj := fun a ha => ok.1.inj (a := a) ha mem
  obtain ⟨-, records, gens, order, keys, quota, counter⟩ := ok
  refine ⟨entries, fun x hx => ?_, gens, ?_, keys_eq ▸ keys, ?_, counter⟩
  · obtain ⟨a, ha, rfl⟩ := List.mem_map.1 hx
    split
    · next here =>
      obtain rfl := inj a ha here
      obtain ⟨-, gen, lo, hi⟩ := records a ha
      have at_entry : ∀ e : Fin 24, e = a.entry → t.gens[e] = t.gens[a.entry] := by rintro _ rfl; rfl
      exact ⟨hr, (at_entry _ (place a).entry).trans (gen.trans (place a).gen.symm), (place a).seq ▸ lo, (place a).seq ▸ hi⟩
    · exact records a ha
  · rw [← List.pairwise_map (f := DemandRecord.seq) (R := (· < ·)), seqs, List.pairwise_map]
    exact order
  · rw [DemandTable.linkCount_congr (t := t) (t.amend_map r _ fun x _ _ => (place x).origin)]
    exact quota

theorem Duration.admits_countDown {d : Duration} {n : Option Nat} (h : d.admits n = true) :
    d.admits (n.map countDown) = true := by
  cases d <;> cases n <;> simp_all [Duration.admits]
  next n m => exact (countDown_le m).trans h.2.2

theorem DemandTable.tickSecond_map {α : Type} (f : DemandRecord → α)
    (unread : ∀ r n, f { r with remaining := n } = f r) (t : DemandTable) :
    t.tickSecond.live.map f = t.live.map f := by
  unfold DemandTable.tickSecond
  rw [List.map_map]
  exact List.map_congr_left fun x _ => unread x _

theorem DemandTable.Ok.tickSecond {t : DemandTable} (ok : t.Ok) : t.tickSecond.Ok := by
  have entries : t.tickSecond.EntriesOk := ok.1.congr rfl (t.tickSecond_map _ fun _ _ => rfl)
  have keys_eq : t.tickSecond.live.map DemandRecord.key = _ := t.tickSecond_map _ fun _ _ => rfl
  have count : t.tickSecond.linkCount = _ := DemandTable.linkCount_congr (t.tickSecond_map _ fun _ _ => rfl)
  obtain ⟨-, records, gens, order, keys, quota, counter⟩ := ok
  refine ⟨entries, fun x hx => ?_, gens, List.pairwise_map.2 order, keys_eq ▸ keys, count ▸ quota, counter⟩
  obtain ⟨a, ha, rfl⟩ := List.mem_map.1 hx
  obtain ⟨⟨gen_lo, gen_hi, level, admits, rest⟩, place⟩ := records a ha
  exact ⟨⟨gen_lo, gen_hi, level, Duration.admits_countDown admits, rest⟩, place⟩

/-! ### What the HUMIDITY record asks -/

/-- What the rule of the HUMIDITY record reads of a record. -/
def DemandRecord.asked (r : DemandRecord) : Origin × Kind × Nat × Bool := (r.origin, r.kind, r.level, r.held)

theorem DemandTable.humidityAsk_eq (t : DemandTable) :
    t.humidityAsk =
      ((t.live.map DemandRecord.asked).find? fun x => x.1 = .humidity && x.2.1 = .boost).map fun x => x.2.2 := by
  rw [List.find?_map, Option.map_map]
  rfl

theorem DemandTable.humidityAsk_congr {t u : DemandTable}
    (h : u.live.map DemandRecord.asked = t.live.map DemandRecord.asked) : u.humidityAsk = t.humidityAsk := by
  rw [u.humidityAsk_eq, t.humidityAsk_eq, h]

theorem DemandTable.humidityAsk_add {t : DemandTable} {x : Draft} (other : x.origin ≠ .humidity) (now : Nat) :
    (t.add x now).humidityAsk = t.humidityAsk := by
  cases free : t.freeList with
  | nil => rw [DemandTable.add, free]
  | cons e rest =>
    rw [DemandTable.add_of_free free, DemandTable.humidityAsk_eq, DemandTable.humidityAsk_eq, List.map_append,
      t.makeRoom_map DemandRecord.asked fun _ _ => rfl, List.find?_append]
    simp [DemandRecord.asked, other]

theorem DemandTable.humidityAsk_remove {t : DemandTable} (ok : t.EntriesOk) {r : DemandRecord} (mem : r ∈ t.live)
    (other : r.origin ≠ .humidity) : (t.remove r).humidityAsk = t.humidityAsk := by
  obtain ⟨pre, post, place⟩ := DemandTable.placed mem
  rw [DemandTable.remove_at ok place, DemandTable.humidityAsk_eq, DemandTable.humidityAsk_eq, place]
  simp [List.find?_append, DemandRecord.asked, other]

/-- The table without its HUMIDITY record asks nothing. -/
theorem DemandTable.humidityAsk_none {t : DemandTable} (h : ∀ r ∈ t.live, r.origin ≠ .humidity) :
    t.humidityAsk = none := by
  rw [DemandTable.humidityAsk, DemandTable.humidityRecord_none h]; rfl

/-! ### Changes of the table in the part -/

section
variable {s : State}

theorem State.TableTo.add {x : Draft} (draft : s.SettingsOk → x.Ok) (new : ∀ r ∈ s.demand.live, r.key ≠ x.key)
    (quota : x.origin = .link → s.demand.linkCount < 16) (other : x.origin ≠ .humidity) (now : Nat) :
    s.TableTo (s.demand.add x now) :=
  ⟨fun ok settings => ok.add (draft settings) new quota now, fun entries => entries.add x now,
    fun _ => DemandTable.humidityAsk_add other now⟩

theorem State.TableTo.remove {r : DemandRecord} (mem : r ∈ s.demand.live) (other : s.demand.Ok → r.origin ≠ .humidity) :
    s.TableTo (s.demand.remove r) :=
  ⟨fun ok _ => ok.remove mem, fun entries => entries.remove mem,
    fun ok => DemandTable.humidityAsk_remove ok.1 mem (other ok)⟩

theorem State.TableTo.amend {r : DemandRecord} (mem : r ∈ s.demand.live) {f : DemandRecord → DemandRecord}
    (place : ∀ x : DemandRecord, x.SamePlace (f x)) (kept : s.SettingsOk → r.Ok → (f r).Ok)
    (other : r.origin ≠ .humidity) : s.TableTo (s.demand.amend r f) := by
  refine ⟨fun ok settings => ok.amend mem place (kept settings (ok.2.1 r mem).1), fun entries => entries.amend r place,
    fun ok => ?_⟩
  obtain ⟨pre, post, placed⟩ := DemandTable.placed mem
  have still : (f r).origin ≠ .humidity := by rw [(place r).origin]; exact other
  rw [DemandTable.amend_at ok.1 placed, DemandTable.humidityAsk_eq, DemandTable.humidityAsk_eq, placed]
  simp [List.find?_append, DemandRecord.asked, other, still]

/-- R50: a filing. -/
theorem State.fileRecord_moves {x : Draft} (kept : s.TableTo (s.demand.add x s.clock.seconds)) :
    s.Moves (s.fileRecord x) := (State.Move.tableRead _ kept).moves.channelTail

/-- R34 and R50: a retirement. -/
theorem State.retireRecord_moves {r : DemandRecord} (kept : s.TableTo (s.demand.remove r)) :
    s.Moves (s.retireRecord r) := (State.Move.tableRead _ kept).moves.channelTail

/-- What the resolver reads of the records, where an amendment keeps it. -/
theorem DemandTable.amend_read {t : DemandTable} (ok : t.EntriesOk) {r : DemandRecord} (mem : r ∈ t.live)
    {f : DemandRecord → DemandRecord} (place : ∀ x : DemandRecord, x.SamePlace (f x)) (level : (f r).level = r.level)
    (held : (f r).held = r.held) : (t.amend r f).live.map DemandRecord.read = t.live.map DemandRecord.read := by
  refine t.amend_map r _ fun x hx here => ?_
  obtain rfl := ok.inj hx mem here
  simp only [DemandRecord.read, DemandRecord.handle, level, held, (place x).kind, (place x).gen, (place x).entry]

/-- R50: an amendment. -/
theorem State.amendRecord_moves {r : DemandRecord} (mem : r ∈ s.demand.live) {f : DemandRecord → DemandRecord}
    (place : ∀ x : DemandRecord, x.SamePlace (f x)) (kept : s.TableTo (s.demand.amend r f)) :
    s.Moves (s.amendRecord r f) := by
  unfold State.amendRecord
  split
  · next quiet => exact (State.Move.table _ kept fun ok => DemandTable.amend_read ok mem place quiet.1 quiet.2).moves
  · exact (State.Move.tableRead _ kept).moves.channelTail

end

/-! ### Amendments -/

theorem DemandRecord.restart_samePlace (r : DemandRecord) (d : Duration) : r.SamePlace (r.restart d) := ⟨rfl, rfl, rfl, rfl⟩

/-- R32: a record whose duration starts afresh. -/
theorem DemandRecord.Ok.restart {r : DemandRecord} (ok : r.Ok) {d : Duration} (admits : d.admits d.start = true)
    (humidity : r.origin ≠ .humidity) (indefinite : d = .indefinite → r.origin = .link) : (r.restart d).Ok := by
  obtain ⟨gen_lo, gen_hi, level, -, tag, kind, held, -, -⟩ := ok
  exact ⟨gen_lo, gen_hi, level, admits, tag, kind, held, fun h => absurd h humidity, indefinite⟩

theorem DemandRecord.Ok.relevel {r : DemandRecord} (ok : r.Ok) {level : Nat} (h : level ≤ 100) :
    DemandRecord.Ok { r with level } := by
  obtain ⟨gen_lo, gen_hi, -, rest⟩ := ok
  exact ⟨gen_lo, gen_hi, h, rest⟩

theorem Duration.admits_minutes {n : Nat} (lo : 1 ≤ n) (hi : n ≤ 1440) :
    (Duration.minutes n).admits (Duration.minutes n).start = true := by
  simp [Duration.admits, Duration.start, lo, hi]

theorem requestedDuration_admits (minutes : Half) :
    (requestedDuration minutes).admits (requestedDuration minutes).start = true := by
  unfold requestedDuration
  split
  · rfl
  · next other =>
    have : minutes.toNat ≠ 0 := fun h => other ((half_eq_zero_iff minutes).2 h)
    exact Duration.admits_minutes (by omega) (by omega)

theorem clampLevel_le (level : Byte) : clampLevel level ≤ 100 := Nat.min_le_left _ _

/-- R30: a record that a search by origin finds. -/
theorem DemandTable.byOrigin_some {t : DemandTable} {o : Origin} {k : Kind} {r : DemandRecord}
    (h : t.byOrigin o k = some r) : r ∈ t.live ∧ r.origin = o ∧ r.kind = k :=
  ⟨List.mem_of_find?_eq_some h, by simpa using List.find?_some h⟩

theorem DemandTable.byOrigin_new {t : DemandTable} {o : Origin} {k : Kind} (h : t.byOrigin o k = none) {x : Draft}
    (origin : x.origin = o) (kind : x.kind = k) : ∀ r ∈ t.live, r.key ≠ x.key := by
  intro r hr same
  have absent := List.find?_eq_none.1 h r hr
  have h1 : r.origin = x.origin := congrArg Prod.fst same
  have h2 : r.kind = x.kind := congrArg (·.2.1) same
  simp [h1, h2, origin, kind] at absent

theorem DemandTable.find_mem {t : DemandTable} {h : Half} {r : DemandRecord} (found : t.find h = some r) : r ∈ t.live := by
  unfold DemandTable.find at found
  split at found
  · cases found
  · exact List.mem_of_find?_eq_some found

end Sys2Proof.Machine

/-! PROOFS. The humidity sources, the free entry for every filing, and the HUMIDITY record as it follows the contributors (R31, R68 to
R82). -/

namespace Sys2Proof.Machine

/-! ### Sources -/

/-- R71 and R72: a baseline that takes a share of the difference stays between itself and the sample. -/
theorem baseline_step_range {b m : Int} (b_range : 0 ≤ b ∧ b ≤ 1000) (m_range : 0 ≤ m ∧ m ≤ 1000) {k : Nat}
    (hk : k = 4 ∨ k = 16) : 0 ≤ b + symRound (m - b) k ∧ b + symRound (m - b) k ≤ 1000 := by
  rcases hk with rfl | rfl <;> unfold symRound roundDiv <;> split <;> omega

/-- R75: a level lies between 20 and 100. -/
theorem riseLevel_range {p : Params} (ok : p.Ok) (e : Int) : 20 ≤ riseLevel p e ∧ riseLevel p e ≤ 100 := by
  have base : 20 ≤ p.get .baseLevel ∧ p.get .baseLevel ≤ 100 := ok.range .baseLevel
  have top : 50 ≤ p.get .humLevelMax ∧ p.get .humLevelMax ≤ 100 := ok.range .humLevelMax
  have clamped (x : Int) : 20 ≤ clampInt (min (p.get .baseLevel) (p.get .humLevelMax)) (p.get .humLevelMax) x
      ∧ clampInt (min (p.get .baseLevel) (p.get .humLevelMax)) (p.get .humLevelMax) x ≤ 100 := by
    rw [clampInt_eq_min_max (min_le_right _ _)]; omega
  unfold riseLevel
  dsimp only
  have := clamped (p.get .baseLevel + symRound ((p.get .humLevelMax - p.get .baseLevel) * e) (2 * p.nat .humRise))
  omega

/-- R68: a source that is not RISING has no level and no flag. -/
theorem Source.ok_of_not_rising {x : Source} (state : x.state ≠ .rising) (level : x.level = none)
    (dull : x.noDrying = false) (seen : x.state ≠ .disarmed → x.baseline.isSome = true ∧ x.last.isSome = true)
    (baseline : ∀ b ∈ x.baseline, 0 ≤ b ∧ b ≤ 1000) (settle : x.settle < 10) : x.Ok :=
  ⟨by simp [state, level], by simp [dull], seen, by simp [level], baseline, settle⟩

/-- R68: a RISING source has a level. -/
theorem Source.ok_of_rising {x : Source} (state : x.state = .rising) {l : Nat} (level : x.level = some l)
    (level_range : 20 ≤ l ∧ l ≤ 100) (seen : x.baseline.isSome = true ∧ x.last.isSome = true)
    (baseline : ∀ b ∈ x.baseline, 0 ≤ b ∧ b ≤ 1000) (settle : x.settle < 10) : x.Ok :=
  ⟨by simp [state, level], fun _ => state, fun _ => seen, by simpa [level] using level_range, baseline, settle⟩

theorem Source.afterReset_ok : Source.afterReset.Ok := by decide

theorem Source.Ok.quiet_fields {x : Source} (ok : x.Ok) (state : x.state ≠ .rising) :
    x.level = none ∧ x.noDrying = false := by
  obtain ⟨level, dull, -⟩ := ok
  exact ⟨by simpa using mt level.1 state, by simpa using mt dull state⟩

section
variable {p : Params} {x : Source} (params : p.Ok) (outdoor : Option Nat)

include params in
/-- R72, R77 and R78: a source that enters RISING. -/
theorem Source.rise_ok (seen : x.baseline.isSome = true ∧ x.last.isSome = true)
    (baseline : ∀ b ∈ x.baseline, 0 ≤ b ∧ b ≤ 1000) (settle : x.settle < 10) (e t s : Int) :
    (x.rise p outdoor e t s).Ok :=
  Source.ok_of_rising rfl rfl (riseLevel_range params e) seen baseline settle

include params in
/-- R78: a DEFERRED source after its judgement. -/
theorem Source.judgeDeferred_ok (ok : x.Ok) (state : x.state = .deferred) (e t s : Int) :
    (x.judgeDeferred p outdoor e t s).Ok := by
  have fields := ok.quiet_fields (by simp [state])
  obtain ⟨-, -, seen, -, baseline, settle⟩ := ok
  have seen := seen (by simp [state])
  unfold Source.judgeDeferred
  split
  · exact Source.rise_ok params outdoor seen baseline settle e t s
  · exact Source.ok_of_not_rising (by simp) fields.1 fields.2 (fun _ => seen) baseline settle

include params in
/-- R71 to R77: the sample of a usable reading. -/
theorem Source.judge_ok (ok : x.Ok) (night : Bool) (t : Int) {m : Int} (m_range : 0 ≤ m ∧ m ≤ 1000) :
    (x.judge p outdoor night t m).Ok := by
  have quiet_fields := ok.quiet_fields
  obtain ⟨-, -, seen, -, baseline, settle⟩ := ok
  have usual_range : 0 ≤ x.usual m ∧ x.usual m ≤ 1000 := by
    unfold Source.usual
    cases hb : x.baseline with
    | none => exact m_range
    | some b => exact baseline b hb
  have stepped (k : Nat) (hk : k = 4 ∨ k = 16) :
      ∀ b ∈ some (x.usual m + symRound (m - x.usual m) k), 0 ≤ b ∧ b ≤ 1000 := by
    rintro b ⟨⟩; exact baseline_step_range usual_range m_range hk
  have here : ∀ b ∈ some m, 0 ≤ b ∧ b ≤ 1000 := by rintro b ⟨⟩; exact m_range
  unfold Source.judge
  cases state : x.state with
  | disarmed =>
    obtain ⟨level, dull⟩ := quiet_fields (by simp [state])
    refine Source.ok_of_not_rising ?_ level dull (fun _ => ⟨rfl, rfl⟩) (stepped 4 (.inl rfl)) settle
    simp only [Source.arming]; split <;> simp
  | quiet =>
    obtain ⟨level, dull⟩ := quiet_fields (by simp [state])
    have seen := (seen (by simp [state])).1
    dsimp only [Source.watching]
    split
    · split
      · exact Source.ok_of_not_rising (by simp) level dull (fun _ => ⟨seen, rfl⟩) baseline settle
      · exact Source.rise_ok (x := { x with state := .quiet, last := some (m, t), deviation := some (m - x.usual m) })
          params outdoor ⟨seen, rfl⟩ baseline settle _ t m
    · exact Source.ok_of_not_rising (by simp) level dull (fun _ => ⟨rfl, rfl⟩) (stepped 16 (.inr rfl)) settle
  | rising =>
    have seen := (seen (by simp [state])).1
    dsimp only [Source.rising]
    split
    · exact Source.ok_of_not_rising (by simp) rfl rfl (fun _ => ⟨seen, rfl⟩) baseline settle
    · split
      · exact Source.ok_of_not_rising (by simp) rfl rfl (fun _ => ⟨seen, rfl⟩) baseline (by simp)
      · exact Source.ok_of_rising rfl rfl (riseLevel_range params _) ⟨seen, rfl⟩ baseline settle
  | exhausted =>
    obtain ⟨level, dull⟩ := quiet_fields (by simp [state])
    have seen := (seen (by simp [state])).1
    dsimp only [Source.settling, Source.rebase]
    split
    · exact Source.ok_of_not_rising (by simp) level dull (fun _ => ⟨rfl, rfl⟩) here (by simp)
    · split
      · split
        · exact Source.ok_of_not_rising (by simp) level dull (fun _ => ⟨rfl, rfl⟩) here (by simp)
        · next few =>
          exact Source.ok_of_not_rising (by simp) level dull (fun _ => ⟨seen, rfl⟩) baseline (by dsimp only; omega)
      · exact Source.ok_of_not_rising (by simp) level dull (fun _ => ⟨seen, rfl⟩) baseline (by simp)
  | deferred =>
    obtain ⟨level, dull⟩ := quiet_fields (by simp [state])
    have seen := (seen (by simp [state])).1
    dsimp only [Source.deferring]
    have looked : Source.Ok { x with state := .deferred, last := some (m, t), deviation := some (m - x.usual m) } :=
      Source.ok_of_not_rising (by simp) level dull (fun _ => ⟨seen, rfl⟩) baseline settle
    split
    · exact Source.ok_of_not_rising (by simp) level dull (fun _ => ⟨seen, rfl⟩) baseline settle
    · split
      · exact Source.judgeDeferred_ok params outdoor looked rfl _ t m
      · exact looked

include params in
/-- R67 and R70. -/
theorem Source.sample_ok (ok : x.Ok) (night : Bool) (reading : Option (Int × Int)) :
    (x.sample p outdoor night reading).Ok := by
  unfold Source.sample
  split
  · exact Source.afterReset_ok
  · refine Source.judge_ok params outdoor ok night _ ?_
    rw [clampInt_eq_min_max (by decide)]; omega

include params in
/-- R78. -/
theorem Source.release_ok (ok : x.Ok) : (x.release p outdoor).Ok := by
  unfold Source.release
  split
  · next state _ _ => exact Source.judgeDeferred_ok params outdoor ok state _ _ _
  · exact ok

end

/-- R73: the inhibit timer is no part of what a source keeps. -/
theorem Source.Ok.inhibit {x : Source} (ok : x.Ok) (n : Nat) : Source.Ok { x with inhibit := n } := ok

theorem Humidity.source_setSource (h : Humidity) (i j : SourceId) (x : Source) :
    (h.setSource i x).source j = if j = i then x else h.source j := by
  cases i with
  | extract => cases j <;> simp [Humidity.setSource, Humidity.source]
  | station n =>
    cases j with
    | extract => simp [Humidity.setSource, Humidity.source]
    | station m =>
      by_cases same : m = n
      · subst same; simp [Humidity.setSource, Humidity.source]
      · have : n.val ≠ m.val := fun h => same (Fin.ext h.symm)
        simp [Humidity.setSource, Humidity.source, same, this]

theorem Humidity.SourcesOk.setSource {h : Humidity} (ok : h.SourcesOk) (i : SourceId) {x : Source} (hx : x.Ok) :
    (h.setSource i x).SourcesOk := by
  intro j
  rw [Humidity.source_setSource]
  split
  · exact hx
  · exact ok j

theorem Humidity.afterReset_source (i : SourceId) : Humidity.afterReset.source i = .afterReset := by
  cases i <;> simp [Humidity.afterReset, Humidity.source]

/-! ### Room in the table -/

/-- The origins that are no LINK. -/
def Origin.internal : List Origin := .cooker :: .humidity :: (List.finRange 6).map Origin.station

theorem Origin.mem_internal {o : Origin} (h : o ≠ .link) : o ∈ Origin.internal := by
  cases o with
  | link => exact absurd rfl h
  | station n => simp [Origin.internal]
  | cooker => simp [Origin.internal]
  | humidity => simp [Origin.internal]

/-- R30: the origins of the internal records differ, for each has one key. -/
theorem DemandTable.Ok.internal_nodup {t : DemandTable} (ok : t.Ok) :
    ((t.live.filter fun r => r.origin ≠ .link).map DemandRecord.origin).Nodup := by
  have keys := ok.2.2.2.2.1.sublist ((List.filter_sublist (p := fun r => r.origin ≠ .link) (l := t.live)).map _)
  have spelt : (t.live.filter fun r => r.origin ≠ .link).map DemandRecord.key =
      ((t.live.filter fun r => r.origin ≠ .link).map DemandRecord.origin).map fun o => (o, Kind.boost, none) := by
    rw [List.map_map]
    refine List.map_congr_left fun r hr => ?_
    obtain ⟨mem, internal⟩ := List.mem_filter.1 hr
    have internal : r.origin ≠ .link := by simpa using internal
    have r_ok := (ok.2.1 r mem).1
    exact Prod.ext rfl (Prod.ext (r_ok.2.2.2.2.2.1 internal) (r_ok.tag_none internal))
  rw [spelt] at keys
  exact List.Nodup.of_map _ keys

/-- R31: the records are those of LINK and those of internal origins. -/
theorem DemandTable.length_eq (t : DemandTable) :
    t.live.length = t.linkCount + ((t.live.filter fun r => r.origin ≠ .link).map DemandRecord.origin).length := by
  rw [List.length_map, DemandTable.linkCount, ← List.countP_eq_length_filter]
  simpa using List.length_eq_countP_add_countP (fun r : DemandRecord => decide (r.origin = .link)) (l := t.live)

theorem DemandTable.freeList_ne_nil {t : DemandTable} (ok : t.Ok) (few : t.live.length < 24) : t.freeList ≠ [] := by
  intro empty
  have := ok.1.2
  simp [empty] at this
  omega

/-- R31: below the quota there is room for a LINK record. -/
theorem DemandTable.Ok.free_of_quota {t : DemandTable} (ok : t.Ok) (quota : t.linkCount < 16) : t.freeList ≠ [] := by
  refine DemandTable.freeList_ne_nil ok ?_
  have sub : ((t.live.filter fun r => r.origin ≠ .link).map DemandRecord.origin) ⊆ Origin.internal := by
    intro o ho
    obtain ⟨r, hr, rfl⟩ := List.mem_map.1 ho
    exact Origin.mem_internal (by simpa using (List.mem_filter.1 hr).2)
  have := (ok.internal_nodup.subperm sub).length_le
  rw [t.length_eq]
  simp [Origin.internal] at this ⊢
  omega

/-- R31: there is room for a record of an internal origin that has none. -/
theorem DemandTable.Ok.free_of_absent {t : DemandTable} (ok : t.Ok) {o : Origin} (internal : o ≠ .link)
    (absent : ∀ r ∈ t.live, r.origin ≠ o) : t.freeList ≠ [] := by
  refine DemandTable.freeList_ne_nil ok ?_
  have sub : ((t.live.filter fun r => r.origin ≠ .link).map DemandRecord.origin) ⊆ Origin.internal.erase o := by
    intro x hx
    obtain ⟨r, hr, rfl⟩ := List.mem_map.1 hx
    obtain ⟨mem, other⟩ := List.mem_filter.1 hr
    exact (List.mem_erase_of_ne (absent r mem)).2 (Origin.mem_internal (by simpa using other))
  have le := (ok.internal_nodup.subperm sub).length_le
  rw [List.length_erase_of_mem (Origin.mem_internal internal)] at le
  have quota := ok.2.2.2.2.2.1
  rw [t.length_eq]
  simp [Origin.internal] at le ⊢
  omega

/-! ### The HUMIDITY record -/

theorem topLevel_le {xs : List Source} {n : Nat} (h : ∀ x ∈ xs, ∀ l ∈ x.level, l ≤ n) : topLevel xs ≤ n := by
  rw [topLevel_le_iff]
  intro x hx
  cases hl : x.level with
  | none => simp
  | some l => exact h x hx l hl

/-- R75 and R82: the record asks for a level of at most 100. -/
theorem Humidity.wanted_le {h : Humidity} (ok : h.SourcesOk) {level : Nat} {held : Bool}
    (wanted : h.wanted = some (level, held)) : level ≤ 100 := by
  have members : ∀ x ∈ h.members, ∀ l ∈ x.level, l ≤ 100 := by
    intro x hx l hl
    obtain ⟨hx, -⟩ := List.mem_filter.1 hx
    obtain ⟨i, -, rfl⟩ := List.mem_map.1 hx
    exact ((ok i).2.2.2.1 l hl).2
  unfold Humidity.wanted at wanted
  split at wanted
  · cases wanted
  · obtain ⟨rfl, -⟩ := Prod.mk.inj (Option.some.inj wanted)
    exact topLevel_le members
  · obtain ⟨rfl, -⟩ := Prod.mk.inj (Option.some.inj wanted)
    exact topLevel_le fun x hx => members x (List.mem_filter.1 hx).1

theorem DemandTable.humidityRecord_some {t : DemandTable} {r : DemandRecord} (h : t.humidityRecord = some r) :
    r ∈ t.live ∧ r.origin = .humidity :=
  ⟨(DemandTable.byOrigin_some h).1, (DemandTable.byOrigin_some h).2.1⟩

/-- R30: a table whose records keep their rules and that has no HUMIDITY record found has none. -/
theorem DemandTable.Ok.no_humidity {t : DemandTable} (ok : t.Ok) (h : t.humidityRecord = none) :
    ∀ r ∈ t.live, r.origin ≠ .humidity := by
  intro r hr origin
  have absent := List.find?_eq_none.1 h r hr
  have kind := (ok.2.1 r hr).1.2.2.2.2.2.1 (by simp [origin])
  simp [origin, kind] at absent

/-- R81 and R82: the table `d` after the HUMIDITY record of `s` has followed the contributors. -/
structure State.Aligned (s : State) (d : DemandTable) : Prop where
  ok : s.demand.Ok → s.humidity.SourcesOk → d.Ok
  entries : s.demand.EntriesOk → d.EntriesOk
  ask : s.demand.Ok → s.humidity.SourcesOk → d.humidityAsk = s.humidity.wanted

/-- R82: the following of the record is a change of the table, which recomputes unless nothing that the resolver reads has
changed. -/
theorem State.alignHumidity_cases (s : State) :
    ∃ d, s.Aligned d
      ∧ (s.alignHumidity = { s with demand := d }
          ∧ (s.demand.EntriesOk → d.live.map DemandRecord.read = s.demand.live.map DemandRecord.read)
        ∨ s.alignHumidity = State.inputChanged { s with demand := d }) := by
  unfold State.alignHumidity
  split
  · next level held absent wanted =>
    have new := DemandTable.byOrigin_new (x := humidityDraft level held) absent rfl rfl
    refine ⟨s.demand.add (humidityDraft level held) s.clock.seconds, ⟨fun ok sources => ?_,
      fun entries => entries.add _ _, fun ok _ => ?_⟩, .inr rfl⟩
    · exact ok.add ⟨Humidity.wanted_le sources wanted, rfl, by simp [humidityDraft], fun _ => rfl, fun _ => rfl,
        fun _ => rfl, by simp [humidityDraft]⟩ new (by simp [humidityDraft]) _
    · have free := ok.free_of_absent (o := .humidity) (by decide) (ok.no_humidity absent)
      obtain ⟨e, rest, free⟩ := List.exists_cons_of_ne_nil free
      have before : ∀ r ∈ s.demand.makeRoom.live.map DemandRecord.asked, r.1 ≠ .humidity := by
        rw [s.demand.makeRoom_map DemandRecord.asked fun _ _ => rfl]
        simpa [DemandRecord.asked] using ok.no_humidity absent
      have none_before : (s.demand.makeRoom.live.map DemandRecord.asked).find?
          (fun x => x.1 = .humidity && x.2.1 = .boost) = none :=
        List.find?_eq_none.2 fun x hx => by simp [before x hx]
      rw [DemandTable.add_of_free free, DemandTable.humidityAsk_eq, List.map_append, List.find?_append, none_before,
        wanted]
      rfl
  · next r found wanted =>
    obtain ⟨mem, origin⟩ := DemandTable.humidityRecord_some found
    refine ⟨s.demand.remove r, ⟨fun ok _ => ok.remove mem, fun entries => entries.remove mem, fun ok _ => ?_⟩,
      .inr rfl⟩
    rw [wanted]
    refine DemandTable.humidityAsk_none fun x hx own => ?_
    obtain ⟨live, apart⟩ := List.mem_filter.1 hx
    obtain ⟨pre, post, place⟩ := DemandTable.placed live
    have same := DemandTable.humidityRecord_at ok place own
    rw [found] at same
    simp [Option.some.inj same] at apart
  · next r level held found wanted =>
    obtain ⟨mem, origin⟩ := DemandTable.humidityRecord_some found
    have place : ∀ x : DemandRecord, x.SamePlace { x with level, held } := fun x => ⟨rfl, rfl, rfl, rfl⟩
    let f : DemandRecord → DemandRecord := fun x => { x with level, held }
    have amended (ok : s.demand.Ok) (sources : s.humidity.SourcesOk) : (s.demand.amend r f).Ok := by
      obtain ⟨gen_lo, gen_hi, -, duration, tag, kind, -, absent, indefinite⟩ := (ok.2.1 r mem).1
      exact ok.amend mem place ⟨gen_lo, gen_hi, Humidity.wanted_le sources wanted, duration, tag, kind, fun _ => origin,
        absent, indefinite⟩
    refine ⟨s.demand.amend r f, ⟨amended, fun entries => entries.amend r place, fun ok sources => ?_⟩, ?_⟩
    · obtain ⟨pre, post, placed⟩ := DemandTable.placed mem
      have placed_after : (s.demand.amend r f).live = pre ++ f r :: post := by rw [DemandTable.amend_at ok.1 placed]
      rw [DemandTable.humidityAsk, DemandTable.humidityRecord_at (amended ok sources) placed_after origin, wanted]
      rfl
    · unfold State.amendRecord
      split
      · next quiet =>
        exact .inl ⟨rfl, fun ok => DemandTable.amend_read ok mem place quiet.1 quiet.2⟩
      · exact .inr rfl
  · next absent wanted =>
    refine ⟨s.demand, ⟨fun ok _ => ok, id, fun _ _ => ?_⟩, .inl ⟨rfl, fun _ => rfl⟩⟩
    rw [DemandTable.humidityAsk, absent, wanted]
    rfl

end Sys2Proof.Machine

/-! PROOFS. The frost guard: the ranges of its counter, windows, counts and orders under each of its operations (R148 to R167). -/

namespace Sys2Proof.Machine

/-! ### Ranges -/

/-- R148: the counts and orders lie in their ranges. -/
structure Frost.Ranged (g : Frost) : Prop where
  hold : g.hold ≤ 180
  saturation : g.saturation ≤ 180
  ice : g.ice ≤ 2
  stopTimer : g.stopTimer ≤ 3600
  failed : g.failed ≤ 4
  reduction : g.reduction ≤ 80
  preheat : g.preheat ≤ 100

theorem Frost.countsOk_iff (g : Frost) :
    g.CountsOk ↔ g.Ranged ∧ (g.stage.limits = false → g.reduction = 0 ∧ g.preheat = 0) := by
  constructor
  · rintro ⟨hold, saturation, ice, stopTimer, failed, reduction, preheat, calm⟩
    exact ⟨⟨hold, saturation, ice, stopTimer, failed, reduction, preheat⟩, calm⟩
  · rintro ⟨⟨hold, saturation, ice, stopTimer, failed, reduction, preheat⟩, calm⟩
    exact ⟨hold, saturation, ice, stopTimer, failed, reduction, preheat, calm⟩

theorem Frost.cycleOk_of_cycle {g : Frost} (cycles : g.stage = .cycle) :
    g.CycleOk ↔ 1 ≤ g.counter ∧ g.counter ≤ g.latched.limit ∧ g.windows = g.latched.windowsAt g.counter := by
  unfold Frost.CycleOk; rw [if_pos cycles]

theorem Frost.cycleOk_of_other {g : Frost} (other : g.stage ≠ .cycle) :
    g.CycleOk ↔ g.counter = 0 ∧ g.windows = .closed ∧ g.gateResult = none ∧ g.unjudged = false := by
  unfold Frost.CycleOk; rw [if_neg other]

/-! ### Orders -/

section
variable {p : Params} (params : p.Ok) (oa : Option Int)

include params in
theorem limitOrders_range (m : Int) : (limitOrders p m).1 ≤ 80 ∧ (limitOrders p m).2 ≤ 100 := by
  have top : 20 ≤ p.get .frostReduceMax ∧ p.get .frostReduceMax ≤ 80 := params.range .frostReduceMax
  unfold limitOrders
  dsimp only
  split
  · rw [clampInt_eq_min_max (by omega)]; constructor <;> dsimp only <;> omega
  · rw [clampInt_eq_min_max (by omega)]; constructor <;> dsimp only <;> omega

include params in
theorem fallbackOrders_range (window : Bool) :
    (fallbackOrders p oa window).1 ≤ 80 ∧ (fallbackOrders p oa window).2 ≤ 100 := by
  have top : 20 ≤ p.nat .frostReduceMax ∧ p.nat .frostReduceMax ≤ 80 := (params.nat_range .frostReduceMax (by decide)).2
  unfold fallbackOrders
  dsimp only
  split
  · refine ⟨Nat.zero_le _, ?_⟩
    dsimp only
    split
    · exact le_refl _
    · split <;> omega
  · refine ⟨?_, Nat.zero_le _⟩
    dsimp only
    split
    · unfold roundDiv; omega
    · omega

/-- R162: a row that does not limit orders nothing outside the PREHEAT window. -/
theorem fallbackOrders_of_calm (calm : (fallbackStage p oa).limits = false) : fallbackOrders p oa false = (0, 0) := by
  unfold fallbackOrders
  simp [calm]

theorem windowOrders_range {orders : Nat × Nat} (range : orders.1 ≤ 80 ∧ orders.2 ≤ 100) (window : Bool) :
    (windowOrders p window orders).1 ≤ 80 ∧ (windowOrders p window orders).2 ≤ 100 := by
  unfold windowOrders
  split
  · refine ⟨range.1, ?_⟩
    dsimp only
    split <;> omega
  · exact range

include params in
theorem Frost.orders_range {g : Frost} (range : g.reduction ≤ 80 ∧ g.preheat ≤ 100) :
    (g.orders p oa).1 ≤ 80 ∧ (g.orders p oa).2 ≤ 100 := by
  unfold Frost.orders
  split
  · exact fallbackOrders_range params oa _
  · split
    · split
      · exact windowOrders_range (limitOrders_range params _) _
      · exact range
    · exact ⟨Nat.zero_le _, Nat.zero_le _⟩

include params in
/-- R156: the orders formed afresh keep the ranges, and order nothing in a stage that does not limit, in FALLBACK where the row
does not limit either. -/
theorem Frost.Ranged.formOrders {g : Frost} (ranged : g.Ranged)
    (calm : g.stage.limits = false → g.fallback = true → (fallbackStage p oa).limits = false) :
    (g.formOrders p oa).CountsOk := by
  obtain ⟨reduction, preheat⟩ := Frost.orders_range params oa ⟨ranged.reduction, ranged.preheat⟩
  refine (Frost.countsOk_iff _).2
    ⟨⟨ranged.hold, ranged.saturation, ranged.ice, ranged.stopTimer, ranged.failed, reduction, preheat⟩, fun limits => ?_⟩
  have limits : g.stage.limits = false := limits
  have none : g.orders p oa = (0, 0) := by
    unfold Frost.orders
    split
    · next fallback =>
      have other : decide (g.stage = .cycle) = false := by
        revert limits; cases g.stage <;> simp [Stage.limits]
      rw [other, Bool.false_and]
      exact fallbackOrders_of_calm oa (calm limits fallback)
    · rw [limits]; rfl
  show (g.orders p oa).1 = 0 ∧ (g.orders p oa).2 = 0
  rw [none]; exact ⟨rfl, rfl⟩

theorem Frost.CycleOk.formOrders {g : Frost} (ok : g.CycleOk) : (g.formOrders p oa).CycleOk := ok

/-! ### Changes of stage -/

include params in
/-- R157: a cycle begins at 1, within the latched limit. -/
theorem Frost.startCycle_cycleOk {g : Frost} (cycles : g.stage = .cycle) : (g.startCycle p).CycleOk := by
  have limit : 300 ≤ p.nat .cycleLimit := (params.nat_range .cycleLimit (by decide)).2.1
  exact (Frost.cycleOk_of_cycle (g := g.startCycle p) cycles).2
    ⟨le_refl _, show 1 ≤ p.nat .cycleLimit by omega, rfl⟩

theorem Frost.stopCycle_cycleOk {g : Frost} (other : g.stage ≠ .cycle) : g.stopCycle.CycleOk :=
  (Frost.cycleOk_of_other (g := g.stopCycle) other).2 ⟨rfl, rfl, rfl, rfl⟩

include params in
/-- R155: the guard enters a stage. -/
theorem Frost.Ranged.enter {g : Frost} (ranged : g.Ranged) (stage : Stage) (reason : Reason)
    (calm : stage.limits = false → g.fallback = true → (fallbackStage p oa).limits = false) :
    (g.enter p oa stage reason).CycleOk ∧ (g.enter p oa stage reason).CountsOk := by
  unfold Frost.enter
  dsimp only
  have failed : (if (decide (g.stage = .cycle) && decide (stage = .stop) && decide (reason = .iced)) = true then g.failed
      else 0) ≤ 4 := by
    split
    · exact ranged.failed
    · omega
  split
  · next cycles =>
    exact ⟨(Frost.startCycle_cycleOk (g := { g.clearCounts with stage, reason, failed := _ }) params cycles).formOrders oa,
      Frost.Ranged.formOrders params oa ⟨by simp [Frost.startCycle, Frost.clearCounts],
        by simp [Frost.startCycle, Frost.clearCounts], by simp [Frost.startCycle, Frost.clearCounts],
        by simp [Frost.startCycle, Frost.clearCounts], failed, ranged.reduction, ranged.preheat⟩ calm⟩
  · next other =>
    exact ⟨(Frost.stopCycle_cycleOk (g := { g.clearCounts with stage, reason, failed := _ }) other).formOrders oa,
      Frost.Ranged.formOrders params oa ⟨by simp [Frost.stopCycle, Frost.clearCounts],
        by simp [Frost.stopCycle, Frost.clearCounts], by simp [Frost.stopCycle, Frost.clearCounts],
        by simp [Frost.stopCycle, Frost.clearCounts], failed, ranged.reduction, ranged.preheat⟩ calm⟩

theorem Frost.enter_fallback (g : Frost) (stage : Stage) (reason : Reason) :
    (g.enter p oa stage reason).fallback = g.fallback := by
  unfold Frost.enter
  dsimp only
  split <;> rfl

theorem Frost.enter_stage (g : Frost) (stage : Stage) (reason : Reason) :
    (g.enter p oa stage reason).stage = stage := by
  unfold Frost.enter
  dsimp only
  split <;> rfl

/-! ### Evaluations -/

theorem Frost.Ranged.updateCounts {g : Frost} (ranged : g.Ranged) (m : Int) : (g.updateCounts p oa m).Ranged := by
  have hold : g.nextHold p oa m ≤ 180 := by
    unfold Frost.nextHold
    split
    · next top exits =>
      have : top ≤ 180 := by
        unfold Frost.exitCondition at exits
        split at exits
        · obtain ⟨-, rfl⟩ := Prod.mk.inj (Option.some.inj exits); omega
        · obtain ⟨-, rfl⟩ := Prod.mk.inj (Option.some.inj exits); omega
        · split at exits
          · obtain ⟨-, rfl⟩ := Prod.mk.inj (Option.some.inj exits); omega
          · cases exits
        · cases exits
        · cases exits
      omega
    · omega
  have saturation : g.nextSaturation p m ≤ 180 := by
    unfold Frost.nextSaturation
    split <;> omega
  exact ⟨hold, saturation, ranged.ice, ranged.stopTimer, ranged.failed, ranged.reduction, ranged.preheat⟩

/-- What a judged guard keeps: the cycle and the ranges. -/
def Frost.Sound (g : Frost) : Prop := g.CycleOk ∧ g.Ranged ∧ g.fallback = false

include params in
theorem Frost.Sound.enter {g : Frost} (sound : g.Sound) (stage : Stage) (reason : Reason) :
    (g.enter p oa stage reason).Sound := by
  obtain ⟨-, ranged, fallback⟩ := sound
  obtain ⟨cycle, counts⟩ := Frost.Ranged.enter params oa ranged stage reason (by simp [fallback])
  exact ⟨cycle, ((Frost.countsOk_iff _).1 counts).1, (g.enter_fallback oa stage reason).trans fallback⟩

include params in
/-- R152 to R154. -/
theorem Frost.Sound.ownTransition {g : Frost} (sound : g.Sound) (m : Int) : (g.ownTransition p oa m).Sound := by
  unfold Frost.ownTransition
  repeat' split
  all_goals first | exact sound | exact Frost.Sound.enter params oa sound _ _

include params in
/-- R151. -/
theorem Frost.Sound.judge {g : Frost} (sound : g.Sound) (m : Int) : (g.judge p oa m).Sound := by
  unfold Frost.judge
  split
  · split
    · obtain ⟨cycle, ranged, fallback⟩ := sound
      exact ⟨cycle, ⟨by simp [Frost.clearCounts], by simp [Frost.clearCounts], by simp [Frost.clearCounts],
        by simp [Frost.clearCounts], ranged.failed, ranged.reduction, ranged.preheat⟩, fallback⟩
    · exact Frost.Sound.enter params oa sound _ _
  · exact Frost.Sound.ownTransition params oa sound m

theorem Frost.CountsOk.keepOrders {g : Frost} (ok : g.CountsOk) : g.keepOrders.CountsOk := ok

include params in
/-- R149 steps 5 to 7. -/
theorem Frost.evaluate_ok {g : Frost} (cycle : g.CycleOk) (ranged : g.Ranged) (m : Int) :
    (g.evaluate p oa m).CycleOk ∧ (g.evaluate p oa m).CountsOk := by
  let g1 : Frost := if g.fallback then { g with fallback := false, hold := 0, saturation := 0, ice := 0 } else g
  have sound1 : g1.Sound := by
    simp only [g1]
    split
    · exact ⟨cycle, ⟨by simp, by simp, by simp, ranged.stopTimer, ranged.failed, ranged.reduction, ranged.preheat⟩, rfl⟩
    · next fallback => exact ⟨cycle, ranged, by simpa using fallback⟩
  have counted : (g1.updateCounts p oa m).Sound := ⟨sound1.1, sound1.2.1.updateCounts oa m, sound1.2.2⟩
  obtain ⟨judged_cycle, judged_ranged, fallback⟩ := Frost.Sound.judge params oa counted m
  exact ⟨judged_cycle, Frost.Ranged.formOrders params oa judged_ranged (by simp [fallback])⟩

include params in
/-- R162 and R163. -/
theorem Frost.fallbackEvaluate_ok {g : Frost} (cycle : g.CycleOk) (ranged : g.Ranged) :
    (g.fallbackEvaluate p oa).CycleOk ∧ (g.fallbackEvaluate p oa).CountsOk := by
  have ranged1 : Frost.Ranged { g with fallback := true, hold := 0, saturation := 0, ice := 0 } :=
    ⟨by simp, by simp, by simp, ranged.stopTimer, ranged.failed, ranged.reduction, ranged.preheat⟩
  have entered (stage : Stage) (reason : Reason) (row : fallbackStage p oa = stage) :=
    Frost.Ranged.enter params oa ranged1 stage reason (fun calm _ => row ▸ calm)
  have formed (stage : Stage) (reason : Reason) (row : fallbackStage p oa = stage) :=
    Frost.Ranged.formOrders params oa ((Frost.countsOk_iff _).1 (entered stage reason row).2).1
      (fun calm _ => by rw [Frost.enter_stage] at calm; exact row ▸ calm)
  unfold Frost.fallbackEvaluate
  dsimp only
  split
  · next cycles =>
    split
    · next row => exact ⟨(entered .stop .outdoor row).1, formed .stop .outdoor row⟩
    · refine ⟨?_, Frost.Ranged.formOrders params oa (g := { g with
        fallback := true, hold := 0, saturation := 0, ice := 0, unjudged := true })
        ⟨by simp, by simp, by simp, ranged.stopTimer, ranged.failed, ranged.reduction, ranged.preheat⟩ ?_⟩
      · exact (Frost.cycleOk_of_cycle (by exact cycles)).2 ((Frost.cycleOk_of_cycle cycles).1 cycle)
      · intro calm; simp [cycles, Stage.limits] at calm
  · split
    · next same =>
      exact ⟨cycle, Frost.Ranged.formOrders params oa
        (g := { g with fallback := true, hold := 0, saturation := 0, ice := 0 }) ranged1 fun calm _ => by rw [same]; exact calm⟩
    · exact ⟨(entered _ .outdoor rfl).1, formed _ .outdoor rfl⟩

/-! ### Cycles -/

theorem CycleTimes.nextEdge_some {t : CycleTimes} {counter c : Nat} (h : t.nextEdge counter = some c) :
    counter < c ∧ c ≤ t.limit := by
  have mem := List.min?_mem h
  simp only [List.mem_filter, Bool.and_eq_true, decide_eq_true_eq] at mem
  exact mem.2.1

/-- R158: a window that is active at one of two neighbouring values alone opens or closes at the second. -/
theorem windowActive_succ {start stop c : Nat} (h : windowActive start stop (c + 1) ≠ windowActive start stop c) :
    start = c + 1 ∨ stop = c + 1 := by
  by_contra none
  push Not at none
  refine h ?_
  unfold windowActive
  rw [decide_eq_decide]
  omega

/-- R158: the next value of the counter is an edge exactly where it lies within the limit and other windows are active at it. -/
theorem CycleTimes.nextEdge_succ_iff (t : CycleTimes) (c : Nat) :
    t.nextEdge c = some (c + 1) ↔ c + 1 ≤ t.limit ∧ t.windowsAt (c + 1) ≠ t.windowsAt c := by
  constructor
  · intro h
    have mem := List.min?_mem h
    simp only [List.mem_filter, Bool.and_eq_true, decide_eq_true_eq, bne_iff_ne] at mem
    exact ⟨mem.2.1.2, mem.2.2⟩
  · rintro ⟨within, differs⟩
    have edge : c + 1 ∈ [t.preheatStart, t.preheatEnd, t.reduceStart, t.reduceEnd, t.gateStart, t.gateEnd] := by
      by_contra none
      simp only [List.mem_cons, List.not_mem_nil, or_false, not_or] at none
      obtain ⟨n1, n2, n3, n4, n5, n6⟩ := none
      have same {a b : Nat} (ha : ¬c + 1 = a) (hb : ¬c + 1 = b) : windowActive a b (c + 1) = windowActive a b c := by
        by_contra other
        rcases windowActive_succ other with h | h
        · exact ha h.symm
        · exact hb h.symm
      exact differs (by simp only [CycleTimes.windowsAt, same n1 n2, same n3 n4, same n5 n6])
    refine List.min?_eq_some_iff.2 ⟨?_, fun x hx => ?_⟩
    · simp only [List.mem_filter, Bool.and_eq_true, decide_eq_true_eq, bne_iff_ne]
      exact ⟨edge, ⟨by omega, within⟩, differs⟩
    · simp only [List.mem_filter, Bool.and_eq_true, decide_eq_true_eq] at hx
      exact hx.2.1.1

include params in
/-- R156 and R158: the counter reaches an edge. -/
theorem Frost.reachEdge_ok {g : Frost} (cycles : g.stage = .cycle) (ranged : g.Ranged)
    {c : Nat} (edge : g.latched.nextEdge g.counter = some c) :
    (g.reachEdge p oa c).CycleOk ∧ (g.reachEdge p oa c).CountsOk := by
  obtain ⟨later, within⟩ := CycleTimes.nextEdge_some edge
  have limits : g.stage.limits = true := by rw [cycles]; rfl
  have cycle : Frost.CycleOk { g with counter := c, windows := g.latched.windowsAt c } :=
    (Frost.cycleOk_of_cycle (by exact cycles)).2 ⟨show 1 ≤ c by omega, within, rfl⟩
  have ranged1 : Frost.Ranged { g with counter := c, windows := g.latched.windowsAt c } :=
    ⟨ranged.hold, ranged.saturation, ranged.ice, ranged.stopTimer, ranged.failed, ranged.reduction, ranged.preheat⟩
  by_cases same : (g.latched.windowsAt c).preheat = g.windows.preheat
  · rw [show g.reachEdge p oa c = { g with counter := c, windows := g.latched.windowsAt c } from if_pos same]
    exact ⟨cycle, (Frost.countsOk_iff _).2 ⟨ranged1, fun calm => by simp [limits] at calm⟩⟩
  · rw [show g.reachEdge p oa c = Frost.formOrders p oa { g with counter := c, windows := g.latched.windowsAt c } from
      if_neg same]
    exact ⟨cycle, Frost.Ranged.formOrders params oa ranged1 fun calm => by simp [limits] at calm⟩

/-- R160: what a wrap's verdict says of the failed count and, in FALLBACK, of the stage. -/
theorem Frost.wrapVerdict_range {g : Frost} (failed : g.failed ≤ 4) :
    (∀ n, g.wrapVerdict p oa = .next n → n ≤ 4)
      ∧ ∀ stage reason n, g.wrapVerdict p oa = .leave stage reason n →
        n ≤ 4 ∧ (g.fallback = true → stage = fallbackStage p oa) := by
  have on_failure : (∀ n, failedVerdict g.failed = .next n → n ≤ 4)
      ∧ ∀ stage reason n, failedVerdict g.failed = .leave stage reason n → n ≤ 4 := by
    unfold failedVerdict
    split
    · exact ⟨by simp, by rintro _ _ _ ⟨⟩; omega⟩
    · exact ⟨by rintro _ ⟨⟩; omega, by simp⟩
  have judged : (∀ n, g.judgeCycle p = .next n → n ≤ 4)
      ∧ ∀ stage reason n, g.judgeCycle p = .leave stage reason n → n ≤ 4 := by
    unfold Frost.judgeCycle
    repeat' split
    all_goals first
      | exact on_failure
      | exact ⟨by simp, by rintro _ _ _ ⟨⟩; exact failed⟩
      | exact ⟨by rintro _ ⟨⟩; exact Nat.zero_le _, by simp⟩
      | exact ⟨by rintro _ ⟨⟩; exact failed, by simp⟩
  unfold Frost.wrapVerdict
  split
  · split
    · exact ⟨by rintro _ ⟨⟩; exact failed, by simp⟩
    · exact ⟨by simp, by rintro _ _ _ ⟨⟩; exact ⟨failed, fun _ => rfl⟩⟩
  · next fallback =>
    split
    · exact ⟨by rintro _ ⟨⟩; exact failed, by simp⟩
    · exact ⟨judged.1, fun stage reason n h => ⟨judged.2 stage reason n h, fun on => absurd on fallback⟩⟩

theorem Frost.Ranged.failed_set {g : Frost} (ranged : g.Ranged) {n : Nat} (h : n ≤ 4) :
    Frost.Ranged { g with failed := n } :=
  ⟨ranged.hold, ranged.saturation, ranged.ice, ranged.stopTimer, h, ranged.reduction, ranged.preheat⟩

include params in
/-- R158 and R160: the next cycle begins. -/
theorem Frost.nextCycle_ok {g : Frost} (cycles : g.stage = .cycle) (ranged : g.Ranged) {n : Nat} (h : n ≤ 4) :
    (g.nextCycle p oa n).CycleOk ∧ (g.nextCycle p oa n).CountsOk := by
  have limits : g.stage.limits = true := by rw [cycles]; rfl
  have cycle : (Frost.startCycle p { g with failed := n }).CycleOk := Frost.startCycle_cycleOk params cycles
  have ranged1 : (Frost.startCycle p { g with failed := n }).Ranged :=
    ⟨ranged.hold, ranged.saturation, ranged.ice, ranged.stopTimer, h, ranged.reduction, ranged.preheat⟩
  unfold Frost.nextCycle
  dsimp only
  split
  · exact ⟨cycle, Frost.Ranged.formOrders params oa ranged1 fun calm => by simp [Frost.startCycle, limits] at calm⟩
  · exact ⟨cycle, (Frost.countsOk_iff _).2 ⟨ranged1, fun calm => by simp [Frost.startCycle, limits] at calm⟩⟩

/-- R164: a guard that has stood down is CLEAR without FALLBACK. -/
theorem Frost.standDown_stands (g : Frost) : (g.standDown p oa).stage = .clear ∧ (g.standDown p oa).fallback = false := by
  unfold Frost.standDown
  split
  · next clear => exact ⟨clear, rfl⟩
  · exact ⟨Frost.enter_stage oa _ _ _, Frost.enter_fallback oa _ _ _⟩

include params in
/-- R164: the guard stands down. -/
theorem Frost.standDown_ok {g : Frost} (ranged : g.Ranged) :
    (g.standDown p oa).CycleOk ∧ (g.standDown p oa).CountsOk := by
  unfold Frost.standDown
  split
  · next clear =>
    refine ⟨(Frost.cycleOk_of_other (by simp [Frost.stopCycle, Frost.clearCounts, clear])).2 ⟨rfl, rfl, rfl, rfl⟩,
      (Frost.countsOk_iff _).2 ⟨⟨?_, ?_, ?_, ?_, ?_, ?_, ?_⟩, fun _ => ⟨rfl, rfl⟩⟩⟩
    all_goals simp [Frost.stopCycle, Frost.clearCounts]
  · exact Frost.Ranged.enter params oa (g := { g with fallback := false })
      ⟨ranged.hold, ranged.saturation, ranged.ice, ranged.stopTimer, ranged.failed, ranged.reduction, ranged.preheat⟩
      .clear .mode (by simp)

end

/-! ### The guard's other changes -/

/-- R165: what a shown ratio leaves of the guard. -/
theorem Frost.showRatio_ok {g : Frost} (p : Params) (x : RatioResult) (cycle : g.CycleOk) (counts : g.CountsOk) :
    (g.showRatio p x).CycleOk ∧ (g.showRatio p x).CountsOk := by
  obtain ⟨ranged, calm⟩ := (Frost.countsOk_iff g).1 counts
  have kept : Frost.CycleOk { g with lastRatio := some x } ∧ Frost.CountsOk { g with lastRatio := some x } :=
    ⟨cycle, counts⟩
  have ice (b : Bool) : (if b then min 2 (g.ice + 1) else 0) ≤ 2 := by split <;> omega
  unfold Frost.showRatio
  dsimp only
  split
  · next stage =>
    exact ⟨cycle, (Frost.countsOk_iff _).2 ⟨⟨ranged.hold, ranged.saturation, ice _, ranged.stopTimer, ranged.failed,
      ranged.reduction, ranged.preheat⟩, calm⟩⟩
  · next stage =>
    exact ⟨(Frost.cycleOk_of_cycle (by exact stage)).2 ((Frost.cycleOk_of_cycle stage).1 cycle), counts⟩
  · exact kept
  · exact kept
  · exact kept

/-- R165: a shown ratio moves nothing that the resolver reads. -/
theorem Frost.showRatio_same (g : Frost) (p : Params) (x : RatioResult) :
    (g.showRatio p x).stage = g.stage ∧ (g.showRatio p x).fallback = g.fallback
      ∧ (g.showRatio p x).reduction = g.reduction ∧ (g.showRatio p x).preheat = g.preheat
      ∧ (g.showRatio p x).windows = g.windows := by
  unfold Frost.showRatio
  dsimp only
  split <;> exact ⟨rfl, rfl, rfl, rfl, rfl⟩

theorem Frost.takeResult_ok {g : Frost} (p : Params) (steady : Bool) (o : MeasureOutcome) (pn : Nat)
    (cycle : g.CycleOk) (counts : g.CountsOk) :
    (g.takeResult p steady o pn).CycleOk ∧ (g.takeResult p steady o pn).CountsOk := by
  unfold Frost.takeResult
  split
  · exact Frost.showRatio_ok p _ cycle counts
  · exact ⟨cycle, counts⟩
  · split
    · exact Frost.showRatio_ok p _ cycle counts
    · split
      · exact ⟨cycle, counts⟩
      · exact ⟨cycle, counts⟩

theorem Frost.takeResult_same (g : Frost) (p : Params) (steady : Bool) (o : MeasureOutcome) (pn : Nat) :
    (g.takeResult p steady o pn).stage = g.stage ∧ (g.takeResult p steady o pn).fallback = g.fallback
      ∧ (g.takeResult p steady o pn).reduction = g.reduction ∧ (g.takeResult p steady o pn).preheat = g.preheat
      ∧ (g.takeResult p steady o pn).windows = g.windows := by
  unfold Frost.takeResult
  split
  · exact Frost.showRatio_same g p _
  · exact ⟨rfl, rfl, rfl, rfl, rfl⟩
  · split
    · exact Frost.showRatio_same g p _
    · split <;> exact ⟨rfl, rfl, rfl, rfl, rfl⟩

theorem Frost.relearn_ok {g : Frost} (cycle : g.CycleOk) (counts : g.CountsOk) :
    g.relearn.CycleOk ∧ g.relearn.CountsOk := by
  obtain ⟨ranged, calm⟩ := (Frost.countsOk_iff g).1 counts
  refine ⟨?_, (Frost.countsOk_iff _).2 ⟨⟨ranged.hold, ranged.saturation, by simp [Frost.relearn], ranged.stopTimer,
    ranged.failed, ranged.reduction, ranged.preheat⟩, calm⟩⟩
  by_cases cycles : g.stage = .cycle
  · exact (Frost.cycleOk_of_cycle (by exact cycles)).2 ((Frost.cycleOk_of_cycle cycles).1 cycle)
  · obtain ⟨counter, windows, -, unjudged⟩ := (Frost.cycleOk_of_other cycles).1 cycle
    exact (Frost.cycleOk_of_other (by exact cycles)).2 ⟨counter, windows, rfl, unjudged⟩

/-- R157: a second that is neither a wrap nor an edge keeps the windows. -/
theorem Frost.tick_ok {g : Frost} (cycle : g.CycleOk) (counts : g.CountsOk) :
    g.tickStop.tickCounter.CycleOk ∧ g.tickStop.tickCounter.CountsOk := by
  have stopped : g.tickStop.CycleOk ∧ g.tickStop.CountsOk := by
    unfold Frost.tickStop
    split
    · obtain ⟨ranged, calm⟩ := (Frost.countsOk_iff g).1 counts
      exact ⟨cycle, (Frost.countsOk_iff _).2 ⟨⟨ranged.hold, ranged.saturation, ranged.ice, by dsimp only; omega,
        ranged.failed, ranged.reduction, ranged.preheat⟩, calm⟩⟩
    · exact ⟨cycle, counts⟩
  generalize g.tickStop = h at stopped
  obtain ⟨cycle, counts⟩ := stopped
  unfold Frost.tickCounter
  split
  · next counts_on =>
    obtain ⟨cycles, below, quiet⟩ := counts_on
    obtain ⟨pos, -, windows⟩ := (Frost.cycleOk_of_cycle cycles).1 cycle
    have below : h.counter < h.latched.limit := by simpa [Frost.atLimit, cycles] using below
    have quiet : h.latched.nextEdge h.counter ≠ some (h.counter + 1) := by
      simpa [Frost.beforeEdge, cycles] using quiet
    have same : h.latched.windowsAt (h.counter + 1) = h.latched.windowsAt h.counter := by
      by_contra differs
      exact quiet ((h.latched.nextEdge_succ_iff h.counter).2 ⟨below, differs⟩)
    exact ⟨(Frost.cycleOk_of_cycle (by exact cycles)).2
      ⟨by dsimp only; omega, below, windows.trans same.symm⟩, counts⟩
  · exact ⟨cycle, counts⟩

theorem Frost.tick_same (g : Frost) :
    g.tickStop.tickCounter.stage = g.stage ∧ g.tickStop.tickCounter.fallback = g.fallback
      ∧ g.tickStop.tickCounter.reduction = g.reduction ∧ g.tickStop.tickCounter.preheat = g.preheat
      ∧ g.tickStop.tickCounter.windows = g.windows := by
  unfold Frost.tickCounter Frost.tickStop
  split <;> split <;> exact ⟨rfl, rfl, rfl, rfl, rfl⟩

/-! ### The guard in the part -/

section
variable {s : State}

/-- A guard that keeps its stage, orders and windows differs in nothing that the resolver reads. -/
theorem Frost.differs_of_same {g old : Frost} (stage : g.stage = old.stage) (reduction : g.reduction = old.reduction)
    (preheat : g.preheat = old.preheat) (windows : g.windows = old.windows) : g.differs old = false := by
  simp [Frost.differs, stage, reduction, preheat, windows]

/-- R155 to R158: what the guard's move hands on is a chain of moves. -/
theorem State.handFrost_moves {g : Frost} (kept : s.GuardTo g) (opens : Bool) :
    s.Moves ({ s with frost := g }.handFrost s.frost opens) := by
  rw [State.handFrost_eq]
  let q : Pressure := (s.guardMoved g opens).pressure
  have q_ok (ok : s.pressure.Ok) : q.Ok := by
    have filed : (s.pressure.file .frost .exch none).Ok := ok.file (x := .frost) (by decide) rfl
    have start : Pressure.Ok { s.pressure with frost :=
        if opens = true ∧ s.pressure.frost = none then some ⟨.exch, none, false⟩ else s.pressure.frost } := by
      rw [Pressure.file_frost] at filed
      cases opens with
      | true => simpa using filed
      | false => simpa using ok
    exact start.congr rfl rfl rfl rfl rfl rfl rfl
  let v : State := { s with notices := (s.guardMoved g opens).notices, pressure := q }
  have before : s.Moves v :=
    (State.Moves.aside .refl (u := { s with notices := (s.guardMoved g opens).notices }) rfl).tail
      (.pressure q q_ok fun outstanding => .inl outstanding)
  have kept_after : v.GuardTo g := ⟨kept.ok, kept.stand⟩
  split
  · exact State.Moves.channelTail (before.tail (.frostRead g kept_after))
  · next same => exact State.Moves.channelTail (before.tail (.frost g kept_after (by simpa using same)))

theorem State.moveFrost_moves {g : Frost} (kept : s.GuardTo g) : s.Moves (s.moveFrost g) := State.handFrost_moves kept _

/-- A change that a guard standing down does not make. -/
theorem State.GuardTo.of_cycle (cycles : s.frost.stage = .cycle) {g : Frost}
    (ok : s.SettingsOk → s.frost.CycleOk → s.frost.CountsOk → g.CycleOk ∧ g.CountsOk) : s.GuardTo g :=
  ⟨ok, fun _ clear => by simp [cycles] at clear⟩

/-- R149: an evaluation. -/
theorem State.evaluateFrost_moves (s : State) : s.Moves s.evaluateFrost := by
  have ranged (counts : s.frost.CountsOk) : s.readMargin.Ranged :=
    have ranged := ((Frost.countsOk_iff _).1 counts).1
    ⟨ranged.hold, ranged.saturation, ranged.ice, ranged.stopTimer, ranged.failed, ranged.reduction, ranged.preheat⟩
  unfold State.evaluateFrost
  dsimp only
  split
  · exact (State.Move.frost (s := s) s.readMargin.keepOrders ⟨fun _ cycle counts => ⟨cycle, counts⟩, fun _ clear => clear⟩
      (Frost.differs_of_same rfl rfl rfl rfl)).moves
  · next running =>
    split
    · exact State.moveFrost_moves ⟨fun settings cycle counts =>
        Frost.fallbackEvaluate_ok settings.1 _ (g := s.readMargin) cycle (ranged counts), fun stopped => absurd stopped running⟩
    · exact State.moveFrost_moves ⟨fun settings cycle counts =>
        Frost.evaluate_ok settings.1 _ (g := s.readMargin) cycle (ranged counts) _, fun stopped => absurd stopped running⟩

/-- R158: the counter reaches an edge. -/
theorem State.reachEdge_moves (cycles : s.frost.stage = .cycle) {c : Nat}
    (edge : s.frost.latched.nextEdge s.frost.counter = some c) :
    s.Moves (s.moveFrost (s.frost.reachEdge s.params s.frostOa c)) :=
  State.moveFrost_moves (.of_cycle cycles fun settings _ counts =>
    Frost.reachEdge_ok settings.1 _ cycles ((Frost.countsOk_iff _).1 counts).1 edge)

/-- R160: a wrap. -/
theorem State.wrapCycle_moves (cycles : s.frost.stage = .cycle) : s.Moves s.wrapCycle := by
  unfold State.wrapCycle
  dsimp only
  split
  · next n verdict =>
    let shut : State := { s with frost := { s.frost with windows := .closed } }
    obtain ⟨q, eq, followed⟩ := shut.judgeGates_spec
    have q_ok (ok : s.pressure.Ok) : q.Ok := by
      have := State.judgeGates_ok (s := shut) ok
      rwa [eq] at this
    have judged : s.Move { s with pressure := q } :=
      .pressure q q_ok fun outstanding => .inl (followed.link_isSome ▸ outstanding)
    have kept : State.GuardTo { s with pressure := q } (s.frost.nextCycle s.params s.frostOa n) :=
      .of_cycle (s := { s with pressure := q }) cycles fun settings _ counts =>
        have ranged := ((Frost.countsOk_iff _).1 counts).1
        Frost.nextCycle_ok settings.1 _ cycles ranged ((Frost.wrapVerdict_range _ ranged.failed).1 n verdict)
    have closed : shut.judgeGates = { shut with pressure := q } := eq
    rw [closed]
    exact judged.moves.trans (State.handFrost_moves kept _)
  · next stage reason n verdict =>
    refine State.moveFrost_moves (.of_cycle cycles fun settings _ counts => ?_)
    have ranged := ((Frost.countsOk_iff _).1 counts).1
    obtain ⟨range, row⟩ := (Frost.wrapVerdict_range _ ranged.failed).2 stage reason n verdict
    exact Frost.Ranged.enter settings.1 _ (ranged.failed_set range) stage reason
      fun calm fallback => row fallback ▸ calm

/-- A change of the guard that keeps its stage, orders and windows. -/
theorem State.frost_quiet_move {g : Frost}
    (ok : s.frost.CycleOk → s.frost.CountsOk → g.CycleOk ∧ g.CountsOk)
    (same : g.stage = s.frost.stage ∧ g.fallback = s.frost.fallback ∧ g.reduction = s.frost.reduction
      ∧ g.preheat = s.frost.preheat ∧ g.windows = s.frost.windows) : s.Move { s with frost := g } := by
  obtain ⟨stage, fallback, reduction, preheat, windows⟩ := same
  exact .frost g ⟨fun _ => ok, fun _ clear => ⟨stage.trans clear.1, fallback.trans clear.2⟩⟩
    (Frost.differs_of_same stage reduction preheat windows)

/-- R165. -/
theorem State.handExchanger_moves (s : State) (o : MeasureOutcome) (pn : Nat) : s.Moves (s.handExchanger o pn) :=
  (State.frost_quiet_move (Frost.takeResult_ok _ _ _ _) (Frost.takeResult_same _ _ _ _ _)).moves.changedIf _ _

/-- The restart of the FROST timer moves the channel alone. -/
theorem State.restartFrostTimer_move (s : State) : s.Move s.restartFrostTimer :=
  .pressure _ (fun ok => ok.congr rfl rfl rfl rfl rfl rfl rfl) fun outstanding => .inl outstanding

/-- R167. -/
theorem State.relearn_moves (s : State) : s.Moves s.relearn := by
  have quiet : s.Moves { s with frost := s.frost.relearn } :=
    (State.frost_quiet_move Frost.relearn_ok ⟨rfl, rfl, rfl, rfl, rfl⟩).moves
  have timed : s.Moves (State.relearnTimer { s with frost := s.frost.relearn } s.frost.baseline.pn0.isSome) := by
    unfold State.relearnTimer
    split
    · exact quiet.tail (State.restartFrostTimer_move _)
    · exact quiet
  exact (timed.changed _).respond _ _

end

end Sys2Proof.Machine

/-! PROOFS. The fans, the calibration tables, the trim and the preheater under each operation of the drive (R105 to R123). -/

namespace Sys2Proof.Machine

/-! ### Lookups and requests -/

/-- R110: a lookup gives a duty of at most 1000. -/
theorem interpolateDuty_le {points : List CalPoint} (rises : points.Pairwise fun a b => a.duty < b.duty ∧ a.flow < b.flow)
    (le : ∀ c ∈ points, c.duty ≤ 1000) {q : Nat} (above : ∀ a ∈ points.head?, a.flow ≤ q) :
    interpolateDuty points q ≤ 1000 := by
  induction points with
  | nil => exact Nat.zero_le _
  | cons a rest ih =>
    match rest with
    | [] => exact Nat.zero_le _
    | b :: rest =>
      unfold interpolateDuty
      split
      · next below =>
        have order := List.rel_of_pairwise_cons rises (List.mem_cons_self (a := b) (l := rest))
        exact (interpolated_mem_Icc (above a rfl) below order.1.le).2.trans (le b (by simp))
      · next passed =>
        refine ih rises.of_cons (fun c hc => le c (by simp [hc])) fun x hx => ?_
        obtain rfl : b = x := Option.some.inj hx
        exact not_lt.1 passed

theorem CalTable.Ok.dutyFor_le {t : CalTable} (ok : CalTable.Ok t) (q : Nat) : CalTable.dutyFor t q ≤ 1000 := by
  have point (i : Nat) (h : i < 6) : t[i].duty ≤ 1000 := (ok.2 t[i] (by simp)).2.1
  unfold CalTable.dutyFor
  split
  · exact Nat.zero_le _
  · split
    · exact point 0 (by decide)
    · next above =>
      split
      · exact point 5 (by decide)
      · refine interpolateDuty_le ok.1 (fun c hc => (ok.2 c hc).2.1) fun a ha => ?_
        have first : t.toList.head? = some t[0] := by rw [List.head?_eq_getElem?]; simp
        obtain rfl : t[0] = a := Option.some.inj (first.symm.trans ha)
        exact (not_le.1 above).le

theorem Calibrations.Ok.table {c : Calibrations} (ok : c.Ok) (f : FanId) : CalTable.Ok (c.table f) := by
  cases f
  · exact ok.1
  · exact ok.2

/-- R106: the first duty lies in 1 to 1000. -/
theorem State.firstDuty_range {s : State} (cals : s.drive.cals.Ok) (f : FanId) :
    1 ≤ s.firstDuty f ∧ s.firstDuty f ≤ 1000 := by
  have := (cals.table f).2 (s.drive.cals.table f)[0] (by simp)
  exact ⟨this.1, this.2.1⟩

/-- R109: a request is at most 1000. -/
theorem State.fanRequest_le {s : State} (cals : s.drive.cals.Ok) {f : FanId} (ok : (s.drive.fan f).Ok) :
    (s.fanRequest f).duty ≤ 1000 := by
  unfold State.fanRequest
  split
  · exact Nat.zero_le _
  · split
    · exact (cals.table f).dutyFor_le _
    · next v direct =>
      have value : v ≤ 1000 := ok.2.2.2.2.2.2.2.2.2 v (by rw [direct]; rfl)
      have first := (s.firstDuty_range cals f).2
      show raiseToFirst (s.firstDuty f) v ≤ 1000
      unfold raiseToFirst
      split <;> omega

/-! ### A fan under its events -/

section
variable {x : Fan}

/-- R117: a fan that does not run is still. -/
theorem Fan.Ok.still (ok : x.Ok) (state : x.state ≠ .running) : x.commanded = 0 ∧ x.step = none := by
  obtain ⟨running, -, -, -, -, -, -, -, step, -⟩ := ok
  exact ⟨by simpa using mt running.2 state, by simpa using fun h => state (step.1 h).1⟩

/-- R117: a still fan in another state than RUNNING. -/
theorem Fan.Ok.at_rest (ok : x.Ok) {y : Fan} (state : y.state ≠ .running) (commanded : y.commanded = 0)
    (requested : y.requested ≤ 1000) (step : y.step = none) (stall : y.stall < 15) (attempts : y.attempts ≤ 3)
    (rests : y.state = .faultRest → y.attempts < 3) (rest : y.rest ≤ 60) (cleanRun : y.cleanRun ≤ 600)
    (source : y.source = x.source) : y.Ok :=
  ⟨by simp [state, commanded], by omega, requested, stall, attempts, rests, rest, cleanRun, by simp [state, step],
    source ▸ ok.2.2.2.2.2.2.2.2.2⟩

theorem Fan.stalled_ok (ok : x.Ok) : x.stalled.Ok := by
  have all := ok
  obtain ⟨-, -, requested, -, attempts, -, rest, -⟩ := ok
  unfold Fan.stalled
  split
  · next few =>
    exact all.at_rest (by simp) rfl requested rfl (by simp) attempts (fun _ => few) (by simp) (by simp) rfl
  · exact all.at_rest (by simp) rfl requested rfl (by simp) attempts (by simp) rest (by simp) rfl

theorem Fan.rested_ok (ok : x.Ok) (rests : x.state = .faultRest) :
    Fan.Ok { x with state := .idle, attempts := x.attempts + 1, rest := 0 } := by
  obtain ⟨commanded, step⟩ := ok.still (by simp [rests])
  have all := ok
  obtain ⟨-, -, requested, stall, -, few, -, cleanRun, -⟩ := ok
  exact all.at_rest (by simp) commanded requested step stall (few rests) (by simp) (by simp) cleanRun rfl

theorem Fan.cleared_ok (ok : x.Ok) (locked : x.state = .locked) : x.cleared.Ok := by
  obtain ⟨commanded, step⟩ := ok.still (by simp [locked])
  have all := ok
  obtain ⟨-, -, requested, -, -, -, rest, -⟩ := ok
  exact all.at_rest (by simp [Fan.cleared]) commanded requested step (by simp [Fan.cleared]) (by simp [Fan.cleared])
    (by simp [Fan.cleared]) rest (by simp [Fan.cleared]) rfl

/-- R113: the step timer of a ramp. -/
theorem Fan.step_iff {duty requested : Nat} {n : Nat} :
    (if duty = requested then (none : Option Nat) else some n).isSome = true ↔ duty ≠ requested := by
  split <;> simp_all

/-- R113: the commanded duty after one step of a ramp. -/
def Fan.slewTo (x : Fan) (first : Nat) : Nat :=
  if x.commanded < x.requested then x.commanded + 1
  else if 0 < x.requested then x.commanded - 1
  else if first < x.commanded then x.commanded - 1
  else 0

theorem Fan.slew_eq (x : Fan) (first interval : Nat) :
    x.slew first interval =
      if x.slewTo first = 0 then { x with commanded := 0, state := .idle, step := none, stall := 0 }
      else
        { x with
          commanded := x.slewTo first, step := if x.slewTo first = x.requested then none else some interval } := rfl

theorem Fan.slewTo_le {first : Nat} (commanded : x.commanded ≤ 1000) (requested : x.requested ≤ 1000) :
    x.slewTo first ≤ 1000 := by
  unfold Fan.slewTo
  split_ifs <;> omega

theorem Fan.slew_ok (ok : x.Ok) (ramps : x.ramping = true) (first interval : Nat) : (x.slew first interval).Ok := by
  have state : x.state = .running := by
    simp only [Fan.ramping, Bool.and_eq_true, decide_eq_true_eq] at ramps; exact ramps.1.1
  have all := ok
  obtain ⟨running, commanded, requested, stall, attempts, few, rest, cleanRun, step, source⟩ := ok
  rw [Fan.slew_eq]
  split
  · exact all.at_rest (by simp) rfl requested rfl (by simp) attempts (by simp) rest cleanRun rfl
  · next moving =>
    refine ⟨by simp only [state, true_iff]; omega, Fan.slewTo_le commanded requested, requested, stall, attempts, few,
      rest, cleanRun, ?_, source⟩
    rw [Fan.step_iff]
    simp [state]

theorem Fan.follow_ok (ok : x.Ok) {r : DutyRequest} (duty : r.duty ≤ 1000) {first : Nat}
    (first_range : 1 ≤ first ∧ first ≤ 1000) (interval : Nat) : (x.follow r first interval).Ok := by
  have all := ok
  obtain ⟨running, commanded, requested, stall, attempts, few, rest, cleanRun, step, source⟩ := ok
  unfold Fan.follow
  split
  · unfold Fan.drop
    split
    · exact all.at_rest (by simp) rfl (by simp) rfl (by simp) attempts (by simp) rest cleanRun rfl
    · next still => exact all.at_rest still rfl (by simp) rfl stall attempts few rest cleanRun rfl
  · split
    · next moving =>
      refine ⟨running, commanded, duty, stall, attempts, few, rest, cleanRun, ?_, source⟩
      simp only [Fan.redirect]
      rw [Fan.step_iff, running.2 (by omega)]
      simp
    · next zero =>
      have zero : x.commanded = 0 := by simpa using zero
      split
      · refine ⟨by simp only [Fan.start, true_iff]; omega, first_range.2, duty, stall, attempts, by simp [Fan.start], rest,
          cleanRun, ?_, source⟩
        simp only [Fan.start]
        rw [Fan.step_iff]
        simp [ne_comm]
      · have state : x.state ≠ .running := fun h => by have := running.1 h; omega
        exact all.at_rest state zero (by simp) rfl stall attempts few rest cleanRun rfl

theorem Fan.tickMs_ok (ok : x.Ok) : x.tickMs.Ok := by
  obtain ⟨running, commanded, requested, stall, attempts, few, rest, cleanRun, step, source⟩ := ok
  exact ⟨running, commanded, requested, stall, attempts, few, rest, cleanRun, by simpa [Fan.tickMs] using step, source⟩

theorem Fan.tickSecond_ok (ok : x.Ok) : x.tickSecond.Ok := by
  obtain ⟨running, commanded, requested, stall, attempts, few, rest, cleanRun, step, source⟩ := ok
  refine ⟨running, commanded, requested, stall, attempts, few, ?_, ?_, step, source⟩
  · simp only [Fan.tickSecond]
    have := countDown_le x.rest
    split <;> omega
  · simp only [Fan.tickSecond]
    split <;> omega

end

/-! ### Changes inside the drive -/

section
variable {s : State}

theorem Drive.forall_fan {P : Fan → Prop} {d : Drive} : (∀ f, P (d.fan f)) ↔ P d.sup ∧ P d.ext :=
  ⟨fun h => ⟨h .sup, h .ext⟩, fun h f => by cases f; exacts [h.1, h.2]⟩

/-- Each fan's request is the one formed from its source and surroundings. -/
theorem State.requestsCurrent_iff (s : State) :
    s.RequestsCurrent ↔ ∀ f, (s.drive.fan f).requested = (s.fanRequest f).duty :=
  ⟨fun h f => by cases f; exacts [h.1, h.2], fun h => ⟨h .sup, h .ext⟩⟩

/-- A fan's request formed again after a change of `s` to `d` that leaves the other fan's request. -/
theorem State.DriveTo.formed {d : Drive} (f : FanId) (cals : s.SettingsOk → d.cals.Ok)
    (trim : s.drive.TrimOk → d.TrimOk) (fan : (s.drive.fan f).Ok → (d.fan f).Ok)
    (available : (d.fan f).state.available = (s.drive.fan f).state.available)
    (other : ∀ g, g ≠ f → d.fan g = s.drive.fan g ∧ State.fanRequest { s with drive := d } g = s.fanRequest g)
    (preheater : d.preheater = s.drive.preheater) :
    s.DriveTo (State.formRequest { s with drive := d } f).drive := by
  let u : State := { s with drive := d }
  obtain ⟨follows, rest, -, same_preheater, -⟩ := State.formRequest_spec u f
  obtain ⟨cals_eq, trim_eq, -⟩ := Drive.moveFan_rest d f
    ((d.fan f).follow (u.fanRequest f) (u.firstDuty f) s.params.slewInterval)
  have drive_cals : (u.formRequest f).drive.cals = d.cals := cals_eq
  have drive_trim : (u.formRequest f).drive.trim = d.trim := trim_eq
  refine ⟨fun settings => drive_cals ▸ cals settings, fun ok => ?_, fun settings fans g => ?_, fun g => ?_,
    fun current => ?_, ?_⟩
  · unfold Drive.TrimOk at *; rw [drive_trim]; exact trim ok
  · by_cases same : g = f
    · subst same
      rw [follows]
      exact Fan.follow_ok (fan (fans g)) (State.fanRequest_le (s := u) (cals settings) (fan (fans g)))
        (State.firstDuty_range (s := u) (cals settings) g) _
    · rw [rest g same]
      exact (other g same).1.symm ▸ fans g
  · rw [(State.formRequest_keeps u f g).2.2.2.2]
    by_cases same : g = f
    · exact same ▸ available
    · exact congrArg (fun x : Fan => x.state.available) (other g same).1
  · refine (State.requestsCurrent_iff _).2 fun g => ?_
    show ((u.formRequest f).drive.fan g).requested = ((u.formRequest f).fanRequest g).duty
    rw [State.fanRequest_formRequest, State.formRequest_requested]
    split
    · next same => rw [same]
    · next apart =>
      rw [(other g apart).2]
      exact (congrArg Fan.requested (other g apart).1).trans ((s.requestsCurrent_iff.1 current) g)
  · rw [same_preheater]
    exact ⟨congrArg Preheater.effective preheater, congrArg Preheater.pin preheater⟩

theorem State.Move.driveChanged {d : Drive} (kept : s.DriveTo d) :
    s.Moves (State.driveChanged { s with drive := d }) := State.Moves.channelTail (State.Move.drive d kept).moves

/-- R122: a fan's source. -/
theorem State.setFanSource_moves (f : FanId) {x : DriveSource} (value : ∀ v ∈ x.value, v ≤ 1000) :
    s.Moves (s.setFanSource f x) := by
  have named : s.moveFan f { s.drive.fan f with source := x } =
      { s with drive := s.drive.setFan f { s.drive.fan f with source := x } } := State.moveFan_of_same_duty rfl
  unfold State.setFanSource
  rw [named]
  refine State.Move.driveChanged (State.DriveTo.formed f (fun settings => ?_) (fun ok => ?_) (fun ok => ?_) ?_
    (fun g apart => ⟨Drive.fan_setFan_of_ne _ _ apart, ?_⟩) ?_)
  · have := settings.2.1; cases f <;> exact this
  · cases f <;> exact ok
  · rw [Drive.fan_setFan_self]
    obtain ⟨running, commanded, requested, stall, attempts, few, rest, cleanRun, step, -⟩ := ok
    exact ⟨running, commanded, requested, stall, attempts, few, rest, cleanRun, step, value⟩
  · rw [Drive.fan_setFan_self]
  · have same := Drive.fan_setFan_of_ne s.drive { s.drive.fan f with source := x } apart
    exact State.fanRequest_congr rfl rfl (by cases f <;> rfl) (by cases f <;> rfl) (congrArg Fan.source same)
      (congrArg (fun x : Fan => x.state.available) same)
  · cases f <;> rfl

/-- R122: the preheater's source. -/
theorem State.setPreSource_moves (x : DriveSource) : s.Moves (s.setPreSource x) :=
  State.Move.driveChanged ⟨fun settings => settings.2.1, id, fun _ fans => fans, fun f => by cases f <;> rfl, id, rfl, rfl⟩

theorem State.mapSource_moves (o : Output) (direct : Bool) (value : Half) :
    s.Moves (s.mapSource o (o.sourceOf direct value)) := by
  cases o with
  | fan f =>
    refine State.setFanSource_moves f ?_
    cases direct
    · simp [Output.sourceOf, DriveSource.value]
    · simp [Output.sourceOf, DriveSource.value, Output.top]
  | pre => exact State.setPreSource_moves _

/-- R113: a step of a ramp. -/
theorem State.slewStep_moves {f : FanId} (ramps : (s.drive.fan f).ramping = true) :
    s.Moves (s.moveFan f ((s.drive.fan f).slew (s.firstDuty f) s.params.slewInterval)).driveChanged := by
  have state : (s.drive.fan f).state = .running := by
    simp only [Fan.ramping, Bool.and_eq_true, decide_eq_true_eq] at ramps; exact ramps.1.1
  let y := (s.drive.fan f).slew (s.firstDuty f) s.params.slewInterval
  obtain ⟨cals, trim, -, preheater⟩ := Drive.moveFan_rest s.drive f y
  have slewed : y.source = (s.drive.fan f).source ∧ y.requested = (s.drive.fan f).requested
      ∧ y.state.available = (s.drive.fan f).state.available := by
    simp only [y, Fan.slew_eq]
    split
    · exact ⟨rfl, rfl, by rw [state]; rfl⟩
    · exact ⟨rfl, rfl, rfl⟩
  have fan (g : FanId) : (s.drive.moveFan f y).fan g = if g = f then y else s.drive.fan g := by
    split
    · next same => rw [same]; exact Drive.fan_moveFan_self _ _ _
    · next apart => exact Drive.fan_moveFan_of_ne _ _ apart
  have kept (g : FanId) : ((s.drive.moveFan f y).fan g).source = (s.drive.fan g).source
      ∧ ((s.drive.moveFan f y).fan g).requested = (s.drive.fan g).requested
      ∧ ((s.drive.moveFan f y).fan g).state.available = (s.drive.fan g).state.available := by
    rw [fan]
    split
    · next same => exact same ▸ slewed
    · exact ⟨rfl, rfl, rfl⟩
  refine State.Move.driveChanged (d := s.drive.moveFan f y)
    ⟨fun settings => cals ▸ settings.2.1, fun ok => ?_, fun _ fans g => ?_, fun g => (kept g).2.2, fun current => ?_, ?_⟩
  · unfold Drive.TrimOk at *; rw [trim]; exact ok
  · rw [fan]
    split
    · exact Fan.slew_ok (fans f) ramps _ _
    · exact fans g
  · refine (State.requestsCurrent_iff _).2 fun g => ?_
    show ((s.drive.moveFan f y).fan g).requested = _
    rw [(kept g).2.1, State.fanRequest_congr (s := s) (t := { s with drive := s.drive.moveFan f y }) (f := g) rfl rfl trim
      cals (kept g).1 (kept g).2.2]
    exact s.requestsCurrent_iff.1 current g
  · rw [preheater]; exact ⟨rfl, rfl⟩

/-- R107: a point between its neighbours leaves a table whose duties and flows increase. -/
theorem CalTable.Ok.set {t : CalTable} (ok : CalTable.Ok t) {i : Fin 6} {c : CalPoint}
    (allowed : 1 ≤ c.duty ∧ c.duty ≤ 1000 ∧ 1 ≤ c.flow ∧ c.flow ≤ 65535) (fits : CalTable.fits t i c = true) :
    CalTable.Ok (Vector.set t i c) := by
  have neighbours := List.all_eq_true.1 fits
  have before (j : Nat) (h : j < i.val) : t[j].duty < c.duty ∧ t[j].flow < c.flow := by
    have below := neighbours ⟨i.val - 1, by omega⟩ (List.mem_finRange _)
    rw [if_pos (by dsimp only; omega)] at below
    simp only [CalPoint.below, Bool.and_eq_true, decide_eq_true_eq, Fin.getElem_fin] at below
    have le := ok.point_le (i := j) (j := i.val - 1) (by omega) (by omega)
    omega
  have after (j : Nat) (h : i.val < j) (hj : j < 6) : c.duty < t[j].duty ∧ c.flow < t[j].flow := by
    have below := neighbours ⟨i.val + 1, by omega⟩ (List.mem_finRange _)
    rw [if_neg (by dsimp only; omega), if_pos (by dsimp only)] at below
    simp only [CalPoint.below, Bool.and_eq_true, decide_eq_true_eq, Fin.getElem_fin] at below
    have le := ok.point_le (i := i.val + 1) (j := j) (by omega) (by omega)
    omega
  refine ⟨List.pairwise_iff_getElem.2 fun j k hj hk lt => ?_, fun x hx => ?_⟩
  · have hj : j < 6 := by simpa using hj
    have hk : k < 6 := by simpa using hk
    simp only [Vector.getElem_toList, Vector.getElem_set]
    split
    · next same =>
      rw [if_neg (by omega)]
      exact after k (by omega) hk
    · split
      · next same => exact before j (by omega)
      · exact ok.point_lt lt hk
  · rw [Vector.toList_set] at hx
    rcases List.mem_or_eq_of_mem_set hx with h | h
    · exact ok.2 x h
    · exact h ▸ allowed

/-- R107: an accepted point. -/
theorem State.writePoint_moves {f : FanId} {i : Fin 6} {c : CalPoint}
    (allowed : 1 ≤ c.duty ∧ c.duty ≤ 1000 ∧ 1 ≤ c.flow ∧ c.flow ≤ 65535)
    (fits : CalTable.fits (s.drive.cals.table f) i c = true) : s.Moves (s.writePoint f i c) := by
  let t : CalTable := Vector.set (s.drive.cals.table f) i c
  have formed : s.DriveTo
      (State.formRequest { s with drive := { s.drive with cals := s.drive.cals.setTable f t } } f).drive := by
    refine State.DriveTo.formed f (fun settings => ?_) id id rfl (fun g apart => ⟨rfl, ?_⟩) rfl
    · have new : CalTable.Ok t := (settings.2.1.table f).set allowed fits
      cases f
      · exact ⟨new, settings.2.1.2⟩
      · exact ⟨settings.2.1.1, new⟩
    · cases f <;> cases g <;> first | rfl | exact absurd rfl apart
  exact State.Moves.changed (State.Move.driveChanged formed) .calibrations

/-- R111: a trim in its range. -/
theorem State.setTrim_moves {t : Nat} (range : s.drive.TrimOk → 750 ≤ t ∧ t ≤ 1250) : s.Moves (s.setTrim t) := by
  unfold State.setTrim
  split
  · exact .refl
  · have formed : s.DriveTo (State.formRequest { s with drive := { s.drive with trim := t } } .sup).drive :=
      State.DriveTo.formed .sup (fun settings => settings.2.1) range id rfl
        (fun g apart => by cases g; exacts [absurd rfl apart, ⟨rfl, rfl⟩]) rfl
    exact (State.Move.drive _ formed).moves

/-- R111: the trim stays in its range. -/
theorem nextTrim_range {t : Nat} (range : 750 ≤ t ∧ t ≤ 1250) (s1 q : Nat) :
    750 ≤ nextTrim t s1 q ∧ nextTrim t s1 q ≤ 1250 := by
  have moved (c : Prop) [Decidable c] (n : Nat) :
      750 ≤ (if c then clampNat 750 1250 n else t) ∧ (if c then clampNat 750 1250 n else t) ≤ 1250 := by
    split
    · rw [clampNat_eq_min_max (by decide)]; omega
    · exact range
  exact moved _ _

/-! ### Fans that leave or come back -/

/-- R119 to R121: a fan's move that the resolver reads. -/
theorem State.fanRead_moves {f : FanId} {x : Fan} (ok : (s.drive.fan f).Ok → x.Ok) :
    s.Moves (s.moveFan f x).inputChanged := State.Moves.channelTail (State.Move.fanRead f x ok).moves

/-- A fan's counts move alone. -/
theorem State.fanCounts_move {f : FanId} {x : Fan} (same : (s.drive.fan f).SameDrive x)
    (ok : (s.drive.fan f).Ok → x.Ok) : s.Move (s.moveFan f x) := by
  rw [State.moveFan_of_same_duty same.2.2.2]
  have refl (y : Fan) : y.SameDrive y := ⟨rfl, rfl, rfl, rfl⟩
  cases f
  · exact .fans x s.drive.ext s.drive.elapsed (le_refl _) ⟨same, refl _⟩ ⟨ok, id⟩
  · exact .fans s.drive.sup x s.drive.elapsed (le_refl _) ⟨refl _, same⟩ ⟨id, ok⟩

/-- R118: the stall count takes a new value. -/
theorem State.countStall_moves (s : State) (f : FanId) (n : Nat) : s.Moves (s.countStall f n) := by
  unfold State.countStall
  split
  · next few =>
    refine (State.fanCounts_move (s := s) (f := f) (x := { s.drive.fan f with stall := n }) ⟨rfl, rfl, rfl, rfl⟩
      fun ok => ?_).moves
    obtain ⟨running, commanded, requested, -, attempts, few_attempts, rest, cleanRun, step, source⟩ := ok
    exact ⟨running, commanded, requested, few, attempts, few_attempts, rest, cleanRun, step, source⟩
  · have noticed : s.Moves (s.notify .fan) := State.Moves.notify .refl _
    exact noticed.trans (State.fanRead_moves (s := s.notify .fan) (f := f) (x := (s.drive.fan f).stalled) Fan.stalled_ok)

/-- R120: a clean run ends a fault episode. -/
theorem State.cleanRunEnd_move (f : FanId) :
    s.Move (s.moveFan f { s.drive.fan f with cleanRun := 600, attempts := 0 }) := by
  refine State.fanCounts_move ⟨rfl, rfl, rfl, rfl⟩ fun ok => ?_
  obtain ⟨running, commanded, requested, stall, -, -, rest, -, step, source⟩ := ok
  exact ⟨running, commanded, requested, stall, by simp, by simp, rest, by simp, step, source⟩

end

end Sys2Proof.Machine

/-! PROOFS. The moves of the demand commands, the contacts, the stations, the parameters, the filters, the modes and the
measurements. -/

namespace Sys2Proof.Machine

section
variable {s : State}

/-! ### Demand commands and events -/

theorem State.fileLink_moves (k : Kind) (level : Byte) (duration : Half) (tag : Byte) (status : Status) :
    s.Moves (s.fileLink k (clampLevel level) (requestedDuration duration) tag status) := by
  cases key : s.demand.byTag k tag with
  | some r =>
    rw [State.fileLink_of_match key]
    have mem : r ∈ s.demand.live := List.mem_of_find?_eq_some key
    have found : (r.origin = .link ∧ r.kind = k) ∧ r.tag = some tag := by simpa using List.find?_some key
    obtain ⟨⟨origin, -⟩, -⟩ := found
    let f : DemandRecord → DemandRecord :=
      fun x => { x with level := clampLevel level }.restart (requestedDuration duration)
    have place : ∀ x : DemandRecord, x.SamePlace (f x) := fun x => ⟨rfl, rfl, rfl, rfl⟩
    have kept (ok : r.Ok) : (f r).Ok :=
      (ok.relevel (clampLevel_le level)).restart (requestedDuration_admits duration) (by simp [origin]) fun _ => origin
    exact (State.amendRecord_moves mem place (State.TableTo.amend mem place (fun _ => kept) (by simp [origin]))).respond
      _ _
  | none =>
    unfold State.fileLink
    rw [key]
    dsimp only
    split
    · next quota =>
      refine State.Moves.respond (State.fileRecord_moves (State.TableTo.add (fun _ => ⟨clampLevel_le level,
        requestedDuration_admits duration, by simp, by simp, by simp, by simp, by simp⟩) ?_ (fun _ => quota) (by simp) _)) _ _
      intro r hr same
      have absent := List.find?_eq_none.1 key r hr
      have h1 : r.origin = .link := congrArg Prod.fst same
      have h2 : r.kind = k := congrArg (·.2.1) same
      have h3 : r.tag = some tag := congrArg (·.2.2) same
      simp [h1, h2, h3] at absent
    · exact State.Moves.respond .refl _ _

/-- R38: what an amendment leaves of a record. -/
theorem DemandRecord.amended_samePlace (r : DemandRecord) (fields level : Byte) (duration : Half) :
    r.SamePlace (r.amended fields level duration) := by
  unfold DemandRecord.amended
  dsimp only
  split <;> split <;> exact ⟨rfl, rfl, rfl, rfl⟩

theorem DemandRecord.Ok.amended {r : DemandRecord} (ok : r.Ok) (link : r.origin = .link) (fields level : Byte)
    (duration : Half) : (r.amended fields level duration).Ok := by
  have leveled : DemandRecord.Ok (if fields.getLsbD 0 then { r with level := clampLevel level } else r) := by
    split
    · exact ok.relevel (clampLevel_le level)
    · exact ok
  have origin : (if fields.getLsbD 0 then { r with level := clampLevel level } else r).origin = .link := by
    split <;> exact link
  unfold DemandRecord.amended
  dsimp only
  split
  · exact leveled.restart (requestedDuration_admits duration) (by rw [origin]; decide) fun _ => origin
  · exact leveled

theorem State.amendDemand_moves {r : DemandRecord} (mem : r ∈ s.demand.live) (link : r.origin = .link)
    (fields level : Byte) (duration : Half) :
    s.Moves (s.amendRecord r fun x => x.amended fields level duration) :=
  State.amendRecord_moves mem (fun x => x.amended_samePlace fields level duration)
    (State.TableTo.amend mem (fun x => x.amended_samePlace fields level duration)
      (fun _ ok => ok.amended link fields level duration) (by simp [link]))

/-- R39: the host retires no HUMIDITY record. -/
theorem State.retireDemand_moves {r : DemandRecord} (mem : r ∈ s.demand.live) (retirable : r.origin.retirable = true) :
    s.Moves (s.retireRecord r) :=
  State.retireRecord_moves (State.TableTo.remove mem fun _ own => by simp [own, Origin.retirable] at retirable)

/-- R33: a record without a duration does not expire. -/
theorem State.expireDemand_moves {r : DemandRecord} (mem : r ∈ s.demand.live) (timed : r.remaining.isSome = true) :
    s.Moves (s.expireDemand r) := by
  refine State.Moves.notifyIf (State.retireRecord_moves (State.TableTo.remove mem fun ok own => ?_)) _ _
  obtain ⟨-, -, -, admits, -, -, -, absent, -⟩ := (ok.2.1 r mem).1
  obtain ⟨n, hn⟩ := Option.isSome_iff_exists.1 timed
  simp [absent own, hn, Duration.admits] at admits

/-! ### Contacts -/

/-- R32: an amendment of the duration of a record of an internal origin. -/
theorem State.restart_moves_of_found {o : Origin} {k : Kind} {r : DemandRecord}
    (found : s.demand.byOrigin o k = some r) (other : o ≠ .humidity) {d : Duration}
    (admits : s.SettingsOk → d.admits d.start = true) (definite : d ≠ .indefinite) :
    s.Moves (s.amendRecord r fun x => x.restart d) := by
  obtain ⟨mem, origin, -⟩ := DemandTable.byOrigin_some found
  exact State.amendRecord_moves mem (fun x => x.restart_samePlace d) (State.TableTo.amend mem
    (fun x => x.restart_samePlace d) (fun settings ok => ok.restart (admits settings) (by rw [origin]; exact other)
      fun h => absurd h definite) (by rw [origin]; exact other))

/-- R34: a retirement of a record of an internal origin. -/
theorem State.retire_moves_of_found {o : Origin} {k : Kind} {r : DemandRecord}
    (found : s.demand.byOrigin o k = some r) (other : o ≠ .humidity) : s.Moves (s.retireRecord r) := by
  obtain ⟨mem, origin, -⟩ := DemandTable.byOrigin_some found
  exact State.retireRecord_moves (State.TableTo.remove mem fun _ own => other (origin.symm.trans own))

/-- R46. -/
theorem State.cookerClosed_moves : s.Moves s.cookerClosed := by
  unfold State.cookerClosed
  split
  · next r found => exact State.restart_moves_of_found found (by decide) (fun _ => rfl) (by decide)
  · next absent =>
    refine State.fileRecord_moves (State.TableTo.add (fun settings => ?_)
      (DemandTable.byOrigin_new absent rfl rfl) (by simp) (by simp) _)
    have level := (settings.1.nat_range .cookerLevel (by decide)).2.2
    exact ⟨level, rfl, by simp, fun _ => rfl, by simp, by simp, by simp⟩

/-- R47. -/
theorem State.cookerOpened_moves : s.Moves s.cookerOpened := by
  unfold State.cookerOpened
  split
  · next r found =>
    split
    · exact State.retire_moves_of_found found (by decide)
    · next runs =>
      refine State.restart_moves_of_found found (by decide) (fun settings => ?_) (by simp)
      have most : s.params.nat .cookerRunon ≤ 60 := (settings.1.nat_range .cookerRunon (by decide)).2.2
      exact Duration.admits_minutes (by omega) (by omega)
  · exact .refl

/-- R78. -/
theorem State.releaseNight_moves : s.Moves s.releaseNight := by
  refine (State.Move.align (s.humidity.release s.params s.sensing.outdoorMoisture) fun settings sources i => ?_).moves
  rw [Humidity.source_release]
  exact Source.release_ok settings.1 _ (sources i)

/-- R14. -/
theorem State.passContact_moves (c : Contact) (closed : Bool) : s.Moves (s.passContact c closed) := by
  cases c <;> cases closed
  · exact State.cookerOpened_moves
  · exact State.cookerClosed_moves
  · exact State.releaseNight_moves
  · exact .refl

theorem State.sampleContact_moves (c : Contact) (high : Bool) : s.Moves (s.sampleContact c high) := by
  have sampled := s.setContact_move c ((s.sensing.contact c).sample high)
  unfold State.sampleContact
  dsimp only
  split
  · exact sampled.moves
  · exact sampled.moves.trans (State.passContact_moves c _)

theorem State.samples_moves (c : Contact) (samples : List Bool) (s : State) :
    s.Moves (samples.foldl (State.sampleContact c) s) := by
  induction samples generalizing s with
  | nil => exact .refl
  | cons high rest ih => exact (State.sampleContact_moves c high).trans (ih _)

/-- R69 and R70: the sample of a source. -/
theorem State.humiditySample_move (i : SourceId) :
    s.Move (State.alignHumidity { s with humidity := s.humidity.setSource i (s.sampleSource i) }) :=
  .align _ fun settings sources => sources.setSource i (Source.sample_ok settings.1 _ (sources i) _ _)

/-- R73: the inhibit timer's running out. -/
theorem State.inhibitExpiry_move (i : SourceId) :
    s.Move { s with humidity := s.humidity.setSource i { s.humidity.source i with inhibit := 0 } } := by
  refine .inhibit _ fun j => ?_
  rw [Humidity.source_setSource]
  split
  · next same => exact ⟨0, by rw [same]⟩
  · exact ⟨_, rfl⟩

/-! ### Replies -/

/-- R44. -/
theorem State.longPress_moves (n : StationId) : s.Moves (s.longPress n) := by
  unfold State.longPress
  split
  · next r found => exact State.retire_moves_of_found found (by simp)
  · exact .refl

/-- R43. -/
theorem State.shortPress_moves (n : StationId) : s.Moves (s.shortPress n) := by
  have minutes (settings : s.SettingsOk) :
      (Duration.minutes (s.params.nat .boostTime)).admits (Duration.minutes (s.params.nat .boostTime)).start = true := by
    have range : 5 ≤ s.params.nat .boostTime ∧ s.params.nat .boostTime ≤ 240 :=
      (settings.1.nat_range .boostTime (by decide)).2
    exact Duration.admits_minutes (by omega) (by omega)
  unfold State.shortPress
  split
  · next r found => exact State.restart_moves_of_found found (by simp) minutes (by simp)
  · next absent =>
    refine State.fileRecord_moves (State.TableTo.add (fun settings => ?_)
      (DemandTable.byOrigin_new absent rfl rfl) (by simp) (by simp) _)
    have level := (settings.1.nat_range .boostLevel (by decide)).2.2
    exact ⟨level, minutes settings, by simp, fun _ => rfl, by simp, by simp, by simp⟩

/-- R43 and R44: the presses of a reply. -/
theorem State.takePresses_moves (n : StationId) (presses : Bool × Bool) : s.Moves (s.takePresses n presses) := by
  obtain ⟨short, long⟩ := presses
  cases long with
  | true => exact State.longPress_moves n
  | false =>
    cases short with
    | true => exact State.shortPress_moves n
    | false => exact .refl

/-- R56: a good reply within its window. -/
theorem State.goodReply_moves {n : StationId} {e : Nat} {begun : Bool} (window : s.bus.exchange = .window n e begun)
    (r : Report) : s.Moves ((s.setExchange .idle).goodReply n r) := by
  have taken : s.Move ((s.setExchange .idle).setStation n (s.bus.stations[n].good r s.clock.seconds)) := by
    refine .bus _ fun ok => ?_
    have served : s.bus.stations[n].state ≠ .unconfigured := by
      have := (s.bus.ok_iff.1 ok).2
      rwa [window] at this
    obtain ⟨marked, still⟩ := Station.good_withMark served r s.clock.seconds
    exact ok.setStation marked (fun _ => still) trivial
  unfold State.goodReply
  exact ((taken.moves.notifyIf _ _).notifyIf _ _).trans (State.takePresses_moves n _)

theorem State.takeFrame_moves (chars : List Byte) : s.Moves (s.takeFrame chars) := by
  unfold State.takeFrame
  split
  · next n e begun window =>
    split
    · unfold State.judgeReply
      split
      · exact State.goodReply_moves window _
      · exact s.missReply_moves n
    · exact s.missReply_moves n
  · exact .refl
  · exact .refl
  · exact .refl

/-! ### Parameters -/

theorem Params.get_set (p : Params) (x y : Param) (v : Int) :
    (p.set x v).get y = if y = x then v else p.get y := by
  unfold Params.get Params.set
  by_cases same : y = x
  · subst same; simp
  · have : x.index.val ≠ y.index.val := fun h => same (by
      revert h; cases x <;> cases y <;> first | (intro _; rfl) | (intro h; exact absurd h (by decide)))
    simp [same, this]

end

end Sys2Proof.Machine

/-! PROOFS. The parameters under SET_PARAM (R186, R187). -/

namespace Sys2Proof.Machine

/-! ### Ranges and pairs -/

theorem paramTable_row {r : ParamRow} (h : r ∈ paramTable) : r = r.param.row := by
  have all : ∀ r ∈ paramTable, r = r.param.row := by decide
  exact all r h

/-- R186: the five pairs of parameters that bound each other. -/
structure Params.Paired (p : Params) : Prop where
  imbalance : p.get .imbalanceLimit ≤ p.get .defrostAllowance
  humidity : p.get .humRelease + 10 ≤ p.get .humRise
  frost : p.get .frostLimit + 5 ≤ p.get .frostWatch
  ratio : p.get .clearRatio + 5 ≤ p.get .iceRatio
  filter : p.get .filterDueRatio + 20 ≤ p.get .filterOverdueRatio

/-- A parameter keeps its pairing bound. -/
theorem Params.Paired.paired_eq {p : Params} (pairs : p.Paired) (x : Param) : p.paired x (p.get x) = p.get x := by
  obtain ⟨imbalance, humidity, frost, ratio, filter⟩ := pairs
  unfold Params.paired
  split <;> omega

theorem Params.ok_iff (p : Params) : p.Ok ↔ (∀ x, x.row.lo ≤ p.get x ∧ p.get x ≤ x.row.hi) ∧ p.Paired := by
  constructor
  · intro ok
    have pair (x : Param) : p.paired x (p.get x) = p.get x := by
      have := (ok x.row x.row_mem.1).2.2
      rwa [x.row_mem.2] at this
    refine ⟨ok.range, ⟨?_, ?_, ?_, ?_, ?_⟩⟩
    · have := pair .imbalanceLimit; simp only [Params.paired] at this; omega
    · have := pair .humRise; simp only [Params.paired] at this; omega
    · have := pair .frostWatch; simp only [Params.paired] at this; omega
    · have := pair .iceRatio; simp only [Params.paired] at this; omega
    · have := pair .filterOverdueRatio; simp only [Params.paired] at this; omega
  · rintro ⟨range, pairs⟩ r hr
    rw [paramTable_row hr, r.param.row_mem.2]
    exact ⟨(range _).1, (range _).2, pairs.paired_eq _⟩

/-! ### Acceptance -/

/-- R187 step 2: a value clamped to a range lies in it. -/
theorem Param.inRange_range (x : Param) (value : Word) : x.row.lo ≤ x.inRange value ∧ x.inRange value ≤ x.row.hi := by
  have six := (value.extractLsb' 0 6).isLt
  have nine := (value.extractLsb' 0 9).isLt
  have ordered : x.row.lo ≤ x.row.hi := by cases x <;> decide
  unfold Param.inRange
  split
  · show (0 : Int) ≤ _ ∧ _ ≤ (63 : Int); omega
  · show (0 : Int) ≤ _ ∧ _ ≤ (511 : Int); omega
  · rw [clampInt_eq_min_max ordered]; omega

/-- R187 step 3: the pairing bound leaves a value in its range. -/
theorem Params.Ok.accepted_range {p : Params} (ok : p.Ok) (x : Param) (value : Word) :
    x.row.lo ≤ p.accepted x value ∧ p.accepted x value ≤ x.row.hi := by
  have range := x.inRange_range value
  have of (y : Param) := ok.range y
  unfold Params.accepted
  generalize x.inRange value = v at range
  unfold Params.paired
  split
  · have : 20 ≤ v ∧ v ≤ 200 := range
    have : 20 ≤ p.get .defrostAllowance ∧ p.get .defrostAllowance ≤ 300 := of _
    show (20 : Int) ≤ _ ∧ _ ≤ (200 : Int); omega
  · have : 20 ≤ v ∧ v ≤ 300 := range
    have : 20 ≤ p.get .imbalanceLimit ∧ p.get .imbalanceLimit ≤ 200 := of _
    show (20 : Int) ≤ _ ∧ _ ≤ (300 : Int); omega
  · have : 30 ≤ v ∧ v ≤ 200 := range
    have : 10 ≤ p.get .humRelease ∧ p.get .humRelease ≤ 100 := of _
    show (30 : Int) ≤ _ ∧ _ ≤ (200 : Int); omega
  · have : 10 ≤ v ∧ v ≤ 100 := range
    have : 30 ≤ p.get .humRise ∧ p.get .humRise ≤ 200 := of _
    show (10 : Int) ≤ _ ∧ _ ≤ (100 : Int); omega
  · have : 10 ≤ v ∧ v ≤ 80 := range
    have : 0 ≤ p.get .frostLimit ∧ p.get .frostLimit ≤ 40 := of _
    show (10 : Int) ≤ _ ∧ _ ≤ (80 : Int); omega
  · have : 0 ≤ v ∧ v ≤ 40 := range
    have : 10 ≤ p.get .frostWatch ∧ p.get .frostWatch ≤ 80 := of _
    show (0 : Int) ≤ _ ∧ _ ≤ (40 : Int); omega
  · have : 110 ≤ v ∧ v ≤ 250 := range
    have : 100 ≤ p.get .clearRatio ∧ p.get .clearRatio ≤ 150 := of _
    show (110 : Int) ≤ _ ∧ _ ≤ (250 : Int); omega
  · have : 100 ≤ v ∧ v ≤ 150 := range
    have : 110 ≤ p.get .iceRatio ∧ p.get .iceRatio ≤ 250 := of _
    show (100 : Int) ≤ _ ∧ _ ≤ (150 : Int); omega
  · have : 130 ≤ v ∧ v ≤ 300 := range
    have : 150 ≤ p.get .filterOverdueRatio ∧ p.get .filterOverdueRatio ≤ 400 := of _
    show (130 : Int) ≤ _ ∧ _ ≤ (300 : Int); omega
  · have : 150 ≤ v ∧ v ≤ 400 := range
    have : 130 ≤ p.get .filterDueRatio ∧ p.get .filterDueRatio ≤ 300 := of _
    show (150 : Int) ≤ _ ∧ _ ≤ (400 : Int); omega
  · exact range

/-- A relation of two parameters, of which one takes a value. -/
theorem Params.get_set_pair {R : Int → Int → Prop} {p : Params} {x a b : Param} {v : Int} (apart : a ≠ b)
    (old : R (p.get a) (p.get b)) (first : x = a → R v (p.get b)) (second : x = b → R (p.get a) v) :
    R ((p.set x v).get a) ((p.set x v).get b) := by
  rw [Params.get_set, Params.get_set]
  by_cases ha : a = x
  · rw [if_pos ha, if_neg fun hb => apart (ha.trans hb.symm)]
    exact first ha.symm
  · rw [if_neg ha]
    by_cases hb : b = x
    · rw [if_pos hb]; exact second hb.symm
    · rw [if_neg hb]; exact old

/-- R187: the accepted value keeps the pairs. -/
theorem Params.Paired.set_accepted {p : Params} (pairs : p.Paired) (x : Param) (value : Word) :
    (p.set x (p.accepted x value)).Paired where
  imbalance := Params.get_set_pair (R := fun a b => a ≤ b) (by decide) pairs.imbalance
    (by rintro rfl; exact min_le_right _ _) (by rintro rfl; exact le_max_right _ _)
  humidity := Params.get_set_pair (R := fun a b => a + 10 ≤ b) (by decide) pairs.humidity
    (by rintro rfl; simp only [Params.accepted, Params.paired]; omega)
    (by rintro rfl; exact le_max_right _ _)
  frost := Params.get_set_pair (R := fun a b => a + 5 ≤ b) (by decide) pairs.frost
    (by rintro rfl; simp only [Params.accepted, Params.paired]; omega)
    (by rintro rfl; exact le_max_right _ _)
  ratio := Params.get_set_pair (R := fun a b => a + 5 ≤ b) (by decide) pairs.ratio
    (by rintro rfl; simp only [Params.accepted, Params.paired]; omega)
    (by rintro rfl; exact le_max_right _ _)
  filter := Params.get_set_pair (R := fun a b => a + 20 ≤ b) (by decide) pairs.filter
    (by rintro rfl; simp only [Params.accepted, Params.paired]; omega)
    (by rintro rfl; exact le_max_right _ _)

theorem Params.Ok.set_accepted {p : Params} (ok : p.Ok) (x : Param) (value : Word) :
    (p.set x (p.accepted x value)).Ok := by
  rw [Params.ok_iff]
  refine ⟨fun y => ?_, Params.Paired.set_accepted (p.ok_iff.1 ok).2 x value⟩
  rw [Params.get_set]
  split
  · next same => rw [same]; exact ok.accepted_range x value
  · exact ok.range y

/-- R187: a value in the range is taken into it as it is. -/
theorem Param.inRange_of_mem {x : Param} (number : x.isSet = false) {value : Word} (lo : x.row.lo ≤ value.toInt)
    (hi : value.toInt ≤ x.row.hi) : x.inRange value = value.toInt := by
  unfold Param.inRange
  split
  · cases number
  · cases number
  · exact clampInt_of_mem lo hi

/-- Settles O10: the accepted value lies in its range and keeps every pair; one that does both is not changed. -/
theorem acceptedParametersKeepTheirRanges : Obligations.AcceptedParametersKeepTheirRanges := by
  unfold Obligations.AcceptedParametersKeepTheirRanges
  intro p x value ok
  refine ⟨ok.set_accepted x value, fun number lo hi pair => ?_⟩
  rw [Params.accepted, Param.inRange_of_mem number lo hi]
  exact pair

/-! ### What a parameter reaches -/

/-- R187 and R188. -/
theorem State.setParam_moves (s : State) (x : Param) (value : Word) :
    s.Moves (s.setParam x (s.params.accepted x value)) := by
  have ok (h : s.params.Ok) : (s.params.set x (s.params.accepted x value)).Ok := h.set_accepted x value
  have others (y : Param) (apart : y ≠ x) : (s.params.set x (s.params.accepted x value)).get y = s.params.get y := by
    rw [Params.get_set, if_neg apart]
  unfold State.setParam
  split
  · exact .refl
  · refine State.Moves.changed ?_ _
    unfold State.paramReaches
    split
    · exact State.Moves.channelTail (State.Move.paramsRead _ ok).moves
    · next unread =>
      split
      · refine State.Moves.channelTail (State.Move.paramsSteady _ ok fun y reads => others y ?_).moves
        rintro rfl; exact unread reads
      · next timed =>
        have taken : s.Moves { s with params := s.params.set x (s.params.accepted x value) } :=
          (State.Move.params _ ok fun y reads => others y (by
            rintro rfl
            rcases reads with reads | reads
            · exact unread reads
            · exact timed reads)).moves
        split
        · exact taken.trans (State.enableStations_moves _ _)
        · exact taken

end Sys2Proof.Machine

/-! PROOFS. The moves of the filter table, the modes and the measurements (R100 to R103, R130 to R147, R171 to R179). -/

namespace Sys2Proof.Machine

section
variable {s : State}

/-! ### The filter table -/

/-- R176: a record in OVERDUE stays there. -/
theorem FilterRecord.evaluate_of_overdue {r : FilterRecord} (overdue : r.state = .overdue) (p : Params) (hours : Nat)
    (atOver : Bool) : r.evaluate p hours atOver = r := by
  unfold FilterRecord.evaluate
  rw [if_neg (by simp [overdue]), if_neg (by simp [overdue])]

/-- R174 to R176: a result leaves OVERDUE. -/
theorem FilterRecord.takeResult_of_overdue {r : FilterRecord} (overdue : r.state = .overdue) (p : Params)
    (hours now : Nat) (o : MeasureOutcome) (pn : Nat) : (r.takeResult p hours now o pn).state = .overdue := by
  have valid : (r.takeValid pn now).state = .overdue := by
    unfold FilterRecord.takeValid FilterRecord.learn
    dsimp only
    split
    · exact overdue
    · split
      · exact overdue
      · simp [overdue]
  cases o
  · exact (congrArg FilterRecord.state (FilterRecord.evaluate_of_overdue valid p hours false)).trans valid
  · exact (congrArg FilterRecord.state (FilterRecord.evaluate_of_overdue overdue p hours true)).trans overdue
  · exact (congrArg FilterRecord.state (FilterRecord.evaluate_of_overdue overdue p hours false)).trans overdue

/-- R93: what the resolver reads of a slot. -/
theorem Filters.read_setSlot {f : Filters} {i : FilterSlot} {old new : FilterRecord} (held : f.slot i = some old)
    (same : new.state = .overdue ↔ old.state = .overdue) :
    (f.setSlot i (some new)).missing = f.missing
      ∧ (f.setSlot i (some new)).anyIn .overdue = f.anyIn .overdue := by
  cases i with
  | supply =>
    have held : f.supply = some old := held
    simp [Filters.missing, Filters.anyIn, Filters.setSlot, held, same]
  | extract =>
    have held : f.extract = some old := held
    simp [Filters.missing, Filters.anyIn, Filters.setSlot, held, same]

/-- R178: a record takes new fields. -/
theorem State.moveFilter_moves {i : FilterSlot} {old new : FilterRecord} (held : s.filters.slot i = some old)
    (stays : old.state = .overdue → new.state = .overdue) : s.Moves (s.moveFilter i old new) := by
  let v : State := (s.notifyIf (new.state != old.state) .filter).changedIf (old.storedDiffers new) .filterRecords
  have before : s.Moves v := (State.Moves.notifyIf .refl _ _).changedIf _ _
  have same_filters : v.filters = s.filters := by simp only [v, State.changedIf_eq, State.notifyIf_eq]
  have moved : ({ s with filters := s.filters.setSlot i (some new) }.notifyIf (new.state != old.state) .filter).changedIf
      (old.storedDiffers new) .filterRecords = { v with filters := s.filters.setSlot i (some new) } := by
    simp only [v, State.changedIf_eq, State.notifyIf_eq]
  unfold State.moveFilter
  dsimp only
  rw [moved]
  split
  · exact before.tail (.filtersRead _)
  · next not_into =>
    refine before.tail (.filters _ ?_)
    rw [same_filters]
    exact Filters.read_setSlot held ⟨fun into => by_contra fun was => not_into ⟨into, was⟩, stays⟩

/-- R174. -/
theorem State.handFilter_moves (i : FilterSlot) (o : MeasureOutcome) (pn : Nat) : s.Moves (s.handFilter i o pn) := by
  unfold State.handFilter
  split
  · next r held => exact State.moveFilter_moves held fun overdue => r.takeResult_of_overdue overdue _ _ _ _ _
  · exact .refl

/-- R171 and R172: a slot takes a record, or is emptied. -/
theorem State.refit_moves (i : FilterSlot) (r : Option FilterRecord) : s.Moves (s.refit i r) :=
  have before : s.Moves ((s.notify .filter).changed .filterRecords) := (State.Moves.notify .refl _).changed _
  State.Moves.channelTail (before.tail (.filtersRead (s.filters.setSlot i r)))

/-- A channel with other times, entries and flags. -/
theorem State.setPressure_move {p : Pressure} (ok : s.pressure.Ok → p.Ok)
    (link : p.link.isSome = true → s.pressure.link.isSome = true ∨ s.resolver.mode.stopped = false) :
    s.Move (s.setPressure p) := .pressure p ok link

/-- R135 and R137. -/
theorem State.withdrawFilter_moves (i : FilterSlot) : s.Moves (s.withdrawFilter i) := by
  unfold State.withdrawFilter
  split
  · refine (State.Move.pressure _ (fun ok => ?_) fun outstanding => .inl ?_).moves
    · exact (ok.withdraw (x := .filter) (by decide)).congr rfl rfl rfl rfl rfl rfl rfl
    · rw [s.pressure.withdraw_eq] at outstanding; exact outstanding
  · exact .refl

/-- R179: a minute's air moves no state of a record. -/
theorem State.volumeAddition_move (a b : Nat) :
    s.Move { s with filters :=
      { supply := s.filters.supply.map (·.addMinute a), extract := s.filters.extract.map (·.addMinute b) } } := by
  refine .filters _ ?_
  refine ⟨by simp only [Filters.missing, Option.isNone_map], ?_⟩
  simp only [Filters.anyIn, Option.any_map]
  rfl

/-- R177: an evaluation keeps the records and what is OVERDUE of them. -/
theorem Option.any_overdue_evaluate (r : Option FilterRecord) (p : Params) (hours : Nat)
    (none_into : ((r.map (·.evaluate p hours false)).any (·.state = .overdue) && r.all (·.state ≠ .overdue)) = false) :
    (r.map (·.evaluate p hours false)).any (·.state = .overdue) = r.any (·.state = .overdue) := by
  cases r with
  | none => rfl
  | some r =>
    by_cases overdue : r.state = .overdue
    · simp [r.evaluate_of_overdue overdue]
    · simpa [overdue] using none_into

theorem State.takeFilters_moves (hours : Nat) : s.Moves (s.takeFilters (s.filters.evaluate s.params hours)) := by
  let f := s.filters.evaluate s.params hours
  let v : State := s.notifyIf (s.filters.advanced f) .filter
  have before : s.Moves v := State.Moves.notifyIf .refl _ _
  have moved : ({ s with filters := f } : State).notifyIf (s.filters.advanced f) .filter = { v with filters := f } := by
    simp only [v, State.notifyIf_eq]
  have same_filters : v.filters = s.filters := by simp only [v, State.notifyIf_eq]
  unfold State.takeFilters
  dsimp only
  rw [moved]
  split
  · exact State.Moves.channelTail (before.tail (.filtersRead f))
  · next none_into =>
    have none_into : s.filters.cappedMore f = false := by simpa using none_into
    obtain ⟨supply, extract⟩ := Bool.or_eq_false_iff.1 none_into
    refine before.tail (.filters f ?_)
    rw [same_filters]
    refine ⟨by simp [f, Filters.missing, Filters.evaluate], ?_⟩
    exact congrArg₂ (· || ·) (Option.any_overdue_evaluate _ _ _ supply) (Option.any_overdue_evaluate _ _ _ extract)

/-- R192. -/
theorem State.hourPassed_moves : s.Moves s.hourPassed := by
  have counted : s.Moves { s with hours := s.hours + 1 } := State.Moves.aside .refl rfl
  exact ((counted.changed .hours).changed .filterRecords).trans
    (State.takeFilters_moves (s := ({ s with hours := s.hours + 1 }.changed .hours).changed .filterRecords) (s.hours + 1))

/-! ### Modes -/

/-- R102 and R135: the channel at the entry into STANDBY. -/
theorem Pressure.Ok.standDown {p : Pressure} (ok : p.Ok) :
    Pressure.Ok { p with
      link := none
      record := if p.link.isSome = true then { p.record with state := .aborted, cause := some .standby } else p.record
      phase := if p.link.isSome = true ∧ ∃ f ∈ p.phase.flight, f.requester = .link then .free else p.phase } := by
  by_cases outstanding : p.link.isSome = true
  · have aborted := ok.abortLink outstanding .standby
    rw [p.withdraw_link] at aborted
    simpa only [outstanding, if_true, true_and] using aborted
  · have absent : p.link = none := by simpa using outstanding
    simp only [absent, Option.isSome_none]
    exact ok.congr rfl rfl rfl rfl absent.symm rfl rfl

/-- R100 to R103: the part enters a mode. -/
theorem State.enterMode_moves {m : Mode} (named : s.resolver.ModesOk → m ≠ .startup) : s.Moves (s.enterMode m) := by
  let d : Drive := s.leaveCommission.drive
  have sources : d = s.drive ∨ d = s.drive.allAuto := by
    simp only [d, State.leaveCommission]
    split
    · exact .inr rfl
    · exact .inl rfl
  have left : s.leaveCommission = { s with drive := d } := by
    simp only [d, State.leaveCommission]
    split <;> rfl
  unfold State.enterMode
  rw [left]
  by_cases standby : m = .standby
  · subst standby
    rw [State.enterStandby_standby, State.standDownFrost_eq, State.standDownLink_eq]
    dsimp only
    let q : Pressure := { s.pressure with
      frostTimer :=
        if s.frost.stage = .clear then s.pressure.frostTimer
        else if s.frost.baseline.pn0 = none then some (s.params.nat .filterPeriod * 60000) else none
      link := none
      record :=
        if s.pressure.link.isSome = true then { s.pressure.record with state := .aborted, cause := some .standby }
        else s.pressure.record
      phase :=
        if s.pressure.link.isSome = true ∧ ∃ f ∈ s.pressure.phase.flight, f.requester = .link then .free
        else s.pressure.phase }
    have channel : s.Move { s with pressure := q } :=
      .pressure q (fun ok => ok.standDown.congr rfl rfl rfl rfl rfl rfl rfl) (by simp [q])
    refine State.Moves.channelTail ((channel.moves.aside (u := { s with
      pressure := q
      notices := { s.notices with
        flags := s.notices.flags ||| (if s.frost.stage = .clear then 0 else Notice.frost.flag)
          ||| (if s.pressure.link.isSome = true then Notice.measure.flag else 0) } }) rfl).tail
        (.mode .standby d (s.frost.standDown s.params s.frostOa) named sources (fun settings _ counts => ?_) fun _ => ?_))
    · exact Frost.standDown_ok settings.1 s.frostOa ((Frost.countsOk_iff _).1 counts).1
    · obtain ⟨clear, fallback⟩ := Frost.standDown_stands (p := s.params) s.frostOa s.frost
      exact ⟨clear, fallback, rfl⟩
  · rw [State.enterStandby_of_other standby]
    exact State.Moves.channelTail (State.Move.mode m d s.frost named sources (fun _ cycle counts => ⟨cycle, counts⟩)
      fun h => absurd h standby).moves

theorem requestedMode_ne_startup {mode : Byte} {m : Mode} (h : requestedMode mode = some m) : m ≠ .startup := by
  rintro rfl
  unfold requestedMode at h
  split at h
  · cases h
  · next other => exact other h

/-- R101. -/
theorem State.takeMode_moves {m : Mode} (named : m ≠ .startup) : s.Moves (s.takeMode m) := by
  unfold State.takeMode
  split
  · next starting => exact (State.Move.pendingMode m named starting).moves
  · split
    · exact .refl
    · exact State.enterMode_moves fun _ => named

theorem State.storeMode_moves (m : Mode) : s.Moves (s.storeMode m) := by
  unfold State.storeMode
  split
  · next stores => exact (State.Move.stored m (by simpa [Mode.storable] using stores.1)).moves.changed _
  · exact .refl

/-! ### Measurements -/

/-- R140: MEASURE in a mode that runs and with no LINK request under way. -/
theorem State.fileLinkMeasure_moves (t : Tap) (runs : s.resolver.mode.stopped = false)
    (idle : s.pressure.record.state.busy = false) : s.Moves (s.fileLinkMeasure t) := by
  refine (State.setPressure_move (fun ok => ?_) fun _ => .inr runs).moves.tail (State.grant_move _)
  refine ok.measured (Option.not_isSome_iff_eq_none.1 fun outstanding => ?_) t
  simp [ok.busy_iff.2 outstanding] at idle

/-- R141. -/
theorem State.cancel_moves (busy : s.pressure.record.state.busy = true) : s.Moves (s.abortLink .cancelled).grant := by
  have aborted : s.Move (s.setPressure
      { s.pressure.withdraw .link with record := { s.pressure.record with state := .aborted, cause := some .cancelled } }) :=
    State.setPressure_move (fun ok => ok.abortLink (ok.busy_iff.1 busy) .cancelled) fun outstanding => by
      rw [s.pressure.withdraw_link] at outstanding; simp at outstanding
  exact Relation.ReflTransGen.tail (aborted.moves.notify .measure) (State.grant_move _)

/-- R129. -/
theorem State.settleEnd_move {f : Flight} (settling : s.pressure.phase = .select f) :
    s.Move (s.setPressure { s.pressure with phase := .sample f }) := by
  refine State.setPressure_move (fun ok => ?_) fun outstanding => .inl outstanding
  have busy : s.pressure.phase.flight = some f := by rw [settling]; rfl
  obtain ⟨-, -, -, -, -, few, bounded⟩ := (Pressure.ok_iff_of_flight busy).1 ok
  exact ok.sampled busy ⟨rfl, rfl, rfl⟩ few bounded

/-- The fresh flag moves alone. -/
theorem State.fresh_move (b : Bool) : s.Move (s.setPressure { s.pressure with fresh := b }) :=
  State.setPressure_move (fun ok => ok.congr rfl rfl rfl rfl rfl rfl rfl) fun outstanding => .inl outstanding

/-- R111 and R144: the hand-over of a FLOW result. -/
theorem State.handFlow_moves (q : Nat) (overRange : Bool) : s.Moves (s.handFlow q overRange) := by
  unfold State.handFlow
  dsimp only
  split
  · exact (State.setTrim_moves fun ok => nextTrim_range ok _ _).tail (State.fresh_move _)
  · exact (State.fresh_move _).moves

theorem State.handConsumer_moves (f : Flight) (r : Result) : s.Moves (s.handConsumer f r) := by
  unfold State.handConsumer
  split
  · exact State.handFlow_moves _ _
  · exact State.handExchanger_moves _ _ _
  · exact State.handFilter_moves _ _ _
  · exact .refl

/-- A part whose channel is that of `s` but for the fresh flag of R144. -/
def State.SameChannel (s t : State) : Prop := t.pressure = { s.pressure with fresh := t.pressure.fresh }

theorem State.moveFilter_sameChannel (s : State) (i : FilterSlot) (old new : FilterRecord) :
    s.SameChannel (s.moveFilter i old new) := by
  unfold State.SameChannel State.moveFilter
  dsimp only
  split
  · rw [State.recompute_eq]
    simp only [State.changedIf_eq, State.notifyIf_eq]
  · simp only [State.changedIf_eq, State.notifyIf_eq]

theorem State.setTrim_sameChannel (s : State) (t : Nat) : s.SameChannel (s.setTrim t) := by
  unfold State.SameChannel State.setTrim
  split
  · rfl
  · rw [State.driveTail_eq]
    rfl

theorem State.SameChannel.fresh {t : State} (h : s.SameChannel t) (b : Bool) :
    s.SameChannel (t.setPressure { t.pressure with fresh := b }) := by
  have eq : ({ t.pressure with fresh := b } : Pressure) = { s.pressure with fresh := b } := by
    unfold State.SameChannel at h; rw [h]
  exact eq

theorem State.handConsumer_sameChannel (s : State) (f : Flight) (r : Result) : s.SameChannel (s.handConsumer f r) := by
  unfold State.handConsumer
  split
  · unfold State.handFlow
    dsimp only
    split
    · exact (State.setTrim_sameChannel s _).fresh _
    · rfl
  · unfold State.handExchanger
    dsimp only
    rw [State.changedIf_eq]
    rfl
  · unfold State.handFilter
    split
    · exact State.moveFilter_sameChannel _ _ _ _
    · rfl
  · rfl

/-- R131 and R147: the channel after a completion, its requester's slot empty. -/
theorem Pressure.Ok.completed {p q : Pressure} (ok : p.Ok) {f : Flight} (busy : p.phase.flight = some f)
    (requests : ∀ y, q.request y = (p.setRequest f.requester none).request y) (free : q.phase = .free)
    (history : q.history = p.history) (other : f.requester ≠ .link → q.record = p.record)
    (done : f.requester = .link → q.record.state = .done ∧ q.record.result.isSome = true) : q.Ok := by
  refine ok.freed busy (v := none) (by simp) requests free ?_ history
  have link := requests .link
  by_cases own : f.requester = .link
  · rw [own, Pressure.request_setRequest_self] at link
    have absent : q.link = none := link
    obtain ⟨state, result⟩ := done own
    exact ⟨by simp [absent, state], by simp [absent, state], by simp [state, result]⟩
  · rw [Pressure.request_setRequest_of_ne _ _ (Ne.symm own)] at link
    exact (p.ok_iff.1 ok).2.1.congr (other own) link

theorem Pressure.Ok.setEntry {p : Pressure} (ok : p.Ok) (t : Tap) (v : TapEntry) : (p.setEntry t v).Ok := by
  cases t <;> exact ok.congr rfl rfl rfl rfl rfl rfl rfl

theorem Pressure.setEntry_link (p : Pressure) (t : Tap) (v : TapEntry) : (p.setEntry t v).link = p.link := by
  cases t <;> rfl

theorem Pressure.setEntry_phase (p : Pressure) (t : Tap) (v : TapEntry) : (p.setEntry t v).phase = p.phase := by
  cases t <;> rfl

/-- R131 step 5: a restarted timer leaves the requests, the phase, the record and the history. -/
theorem State.restartTimer_spec (s : State) (f : Flight) :
    ∃ p, s.restartTimer f = s.setPressure p ∧ (∀ y, p.request y = s.pressure.request y)
      ∧ p.record = s.pressure.record ∧ p.history = s.pressure.history := by
  unfold State.restartTimer
  split
  · exact ⟨_, rfl, fun y => by cases y <;> rfl, rfl, rfl⟩
  · exact ⟨_, rfl, fun y => by cases y <;> rfl, rfl, rfl⟩
  · exact ⟨_, rfl, fun y => by cases y <;> rfl, rfl, rfl⟩
  · exact ⟨s.pressure, rfl, fun _ => rfl, rfl, rfl⟩

/-- R131 steps 4 to 6: the channel of a completion, of the part `u` that has handed the result to its consumer, with the LINK
record `record`. -/
theorem State.emptied_move {u : State} {f g : Flight} (busy : u.pressure.phase.flight = some f)
    (same : g.requester = f.requester) {record : LinkRecord}
    (other : g.requester ≠ .link → record = u.pressure.record)
    (done : g.requester = .link → record.state = .done ∧ record.result.isSome = true) :
    let v := u.setPressure { u.pressure with record }
    let emptied := (v.setPressure (v.pressure.setRequest g.requester none)).restartTimer g
    u.Move (emptied.setPressure { emptied.pressure with phase := .free }) := by
  intro v emptied
  obtain ⟨p, restarted, requests, kept, history⟩ :=
    (v.setPressure (v.pressure.setRequest g.requester none)).restartTimer_spec g
  have eq : emptied = v.setPressure p := restarted
  have request (y : Requester) : p.request y = (u.pressure.setRequest f.requester none).request y := by
    rw [requests y, ← same]
    cases g.requester <;> cases y <;> rfl
  have record_eq : p.record = record := kept.trans (Pressure.setRequest_record _ _ _)
  have history_eq : p.history = u.pressure.history := history.trans (Pressure.setRequest_history _ _ _)
  rw [eq]
  refine .pressure { p with phase := .free } (fun ok => ok.completed busy (fun y => ?_) rfl history_eq
    (fun apart => ?_) fun own => ?_) fun outstanding => .inl ?_
  · rw [← request y]; cases y <;> rfl
  · exact record_eq.trans (other (same ▸ apart))
  · show p.record.state = .done ∧ p.record.result.isSome = true
    rw [record_eq]; exact done (same.trans own)
  · have outstanding : (p.request .link).isSome = true := outstanding
    by_cases own : .link = f.requester
    · rw [request, ← own, Pressure.request_setRequest_self] at outstanding
      cases outstanding
    · rwa [request, Pressure.request_setRequest_of_ne _ _ own] at outstanding

/-- R131: the completion of the measurement in flight. -/
theorem State.complete_moves {f g : Flight} (busy : s.pressure.phase.flight = some f)
    (same : g.requester = f.requester) : s.Moves (s.complete g) := by
  let r := s.deriveResult g
  let written := s.setPressure (s.pressure.setEntry g.tap ⟨r, g.requester, s.clock.seconds⟩)
  have entered : s.Moves written :=
    (State.setPressure_move (fun ok => ok.setEntry _ _) fun h => .inl (s.pressure.setEntry_link .. ▸ h)).moves
  let u := written.handConsumer g r
  have handed : s.Moves u := entered.trans (State.handConsumer_moves g r)
  have channel : u.pressure = { written.pressure with fresh := u.pressure.fresh } :=
    State.handConsumer_sameChannel written g r
  have in_flight : u.pressure.phase.flight = some f := by
    rw [channel]
    show (s.pressure.setEntry _ _).phase.flight = some f
    rw [Pressure.setEntry_phase]
    exact busy
  unfold State.complete State.handOn
  dsimp only
  refine State.Moves.channelTail ?_
  by_cases link : g.requester = .link
  · rw [if_pos link]
    exact (handed.notify .measure).tail (State.emptied_move (u := u.notify .measure)
      (record := { u.pressure.record with state := .done, result := some r }) in_flight same
      (fun other => absurd link other) fun _ => ⟨rfl, rfl⟩)
  · rw [if_neg link]
    exact handed.tail (State.emptied_move (record := u.pressure.record) in_flight same (fun _ => rfl)
      fun own => absurd own link)

/-- R130: a conversion. -/
theorem State.takeReading_moves {f : Flight} (sampling : s.pressure.phase = .sample f) (conversion : Int) :
    s.Moves (s.takeReading (f.add conversion)) := by
  have busy : s.pressure.phase.flight = some f := by rw [sampling]; rfl
  unfold State.takeReading
  split
  · next few =>
    refine (State.setPressure_move (s := s) (p := { s.pressure with phase := .sample (f.add conversion) })
      (fun ok => ?_) fun h => .inl h).moves
    obtain ⟨-, -, -, -, -, -, bounded⟩ := (Pressure.ok_iff_of_flight busy).1 ok
    exact ok.sampled busy (f.add_same conversion) few (Flight.add_bounded bounded conversion)
  · exact State.complete_moves busy (f.add_same conversion).1

/-! ### Request timers -/

/-- R133: a filing of another requester than LINK, with its timer. -/
theorem State.file_moves {x : Requester} (other : x ≠ .link) {t : Tap} {slot : Option FilterSlot}
    (asks : x.Asks ⟨t, slot, false⟩) {q : Pressure} (same : (s.pressure.file x t slot).Ok → q.Ok)
    (link : q.link = (s.pressure.file x t slot).link) : s.Moves (s.setPressure q).channelTail := by
  refine State.Moves.channelTail (State.setPressure_move (fun ok => same (ok.file other asks)) fun h => .inl ?_).moves
  have kept : (s.pressure.file x t slot).link = s.pressure.link := by
    unfold Pressure.file
    split
    · exact Pressure.setRequest_link other
    · rfl
  rwa [link, kept] at h

theorem State.trimExpiry_moves :
    s.Moves (s.setPressure { s.pressure.file .trim .flow none with trimTimer := none }).channelTail :=
  State.file_moves (x := .trim) (t := .flow) (slot := none) (by decide) rfl
    (fun ok => ok.congr rfl rfl rfl rfl rfl rfl rfl) rfl

theorem State.frostExpiry_moves :
    s.Moves (s.setPressure { s.pressure.file .frost .exch none with frostTimer := none }).channelTail :=
  State.file_moves (x := .frost) (t := .exch) (slot := none) (by decide) rfl
    (fun ok => ok.congr rfl rfl rfl rfl rfl rfl rfl) rfl

theorem State.fileFilter_moves : s.Moves s.fileFilter := by
  unfold State.fileFilter
  split
  · next i _ =>
    exact State.file_moves (x := .filter) (by decide) ⟨i, rfl, rfl⟩ (fun ok => ok.congr rfl rfl rfl rfl rfl rfl rfl) rfl
  · exact (State.setPressure_move (s := s) (p := { s.pressure with filterTimer := some s.params.filterMs })
      (fun ok => ok.congr rfl rfl rfl rfl rfl rfl rfl) fun h => .inl h).moves

end

end Sys2Proof.Machine

/-! PROOFS. Every step is a chain of moves: the commands of the host, the events, and the passing of a millisecond. -/

namespace Sys2Proof.Machine

/-! ### The commands of the host -/

section
variable {s t : State}

theorem execFileDemand_moves {kind level : Byte} {duration : Half} {tag : Byte}
    (e : execFileDemand kind level duration tag s = .next t) : s.Moves t := by
  refine hostCommand_moves ?_ e
  split
  · exact s.refuse_moves _
  · exact State.fileLink_moves ..

theorem execAmendDemand_moves {handle : Half} {fields level : Byte} {duration : Half}
    (e : execAmendDemand handle fields level duration s = .next t) : s.Moves t := by
  refine hostCommand_moves ?_ e
  split
  · exact s.refuse_moves _
  · split
    · exact s.refuse_moves _
    · next r found =>
      split
      · next link => exact State.Moves.respond (State.amendDemand_moves (DemandTable.find_mem found) link ..) ..
      · exact s.refuse_moves _

theorem execRetireDemand_moves {handle : Half} (e : execRetireDemand handle s = .next t) : s.Moves t := by
  refine hostCommand_moves ?_ e
  split
  · exact s.refuse_moves _
  · next r found =>
    split
    · next retirable =>
      exact State.Moves.respond (State.retireDemand_moves (DemandTable.find_mem found) retirable) ..
    · exact s.refuse_moves _

theorem execMeasure_moves {tap : Byte} (e : execMeasure tap s = .next t) : s.Moves t := by
  refine hostCommand_moves ?_ e
  dsimp only
  split
  · exact s.refuse_moves _
  · split
    · exact s.refuse_moves _
    · next runs =>
      split
      · exact s.refuse_moves _
      · next idle =>
        exact State.Moves.respond
          (State.fileLinkMeasure_moves _ (by simpa using runs) (by simpa using idle)) ..

theorem execCancelMeasure_moves (e : execCancelMeasure s = .next t) : s.Moves t := by
  refine hostCommand_moves ?_ e
  split
  · next busy => exact State.Moves.respond (State.cancel_moves busy) ..
  · exact State.Moves.respond .refl ..

theorem execFitFilter_moves {slot grade : Byte} {interval baseline : Half}
    (e : execFitFilter slot grade interval baseline s = .next t) : s.Moves t := by
  refine hostCommand_moves ?_ e
  dsimp only
  split
  · split
    · exact s.refuse_moves _
    · exact State.Moves.respond (State.refit_moves ..) ..
  · exact s.refuse_moves _

theorem execRetireFilter_moves {slot : Byte} (e : execRetireFilter slot s = .next t) : s.Moves t := by
  refine hostCommand_moves ?_ e
  split
  · exact s.refuse_moves _
  · split
    · exact s.refuse_moves _
    · exact State.Moves.respond ((State.withdrawFilter_moves _).trans (State.refit_moves ..)) ..

theorem execSetParam_moves {ident : Byte} {value : Word} (e : execSetParam ident value s = .next t) : s.Moves t := by
  refine hostCommand_moves ?_ e
  dsimp only
  split
  · exact s.refuse_moves _
  · exact State.Moves.respond (s.setParam_moves ..) ..

theorem execSetMode_moves {mode : Byte} (e : execSetMode mode s = .next t) : s.Moves t := by
  refine hostCommand_moves ?_ e
  dsimp only
  split
  · exact s.refuse_moves _
  · next m named =>
    exact State.Moves.respond
      ((State.takeMode_moves (requestedMode_ne_startup named)).trans (State.storeMode_moves m)) ..

theorem execSetSource_moves {output source : Byte} {value : Half}
    (e : execSetSource output source value s = .next t) : s.Moves t := by
  refine hostCommand_moves ?_ e
  dsimp only
  split
  · split
    · exact State.Moves.respond (State.mapSource_moves ..) ..
    · exact s.refuse_moves _
  · exact s.refuse_moves _

theorem execWriteCal_moves {fan point : Byte} {duty flow : Half}
    (e : execWriteCal fan point duty flow s = .next t) : s.Moves t := by
  refine hostCommand_moves ?_ e
  dsimp only
  split
  · split
    · next taken =>
      obtain ⟨allowed, fits⟩ := Bool.and_eq_true _ _ ▸ taken
      simp only [CalPoint.allowed, Bool.and_eq_true, decide_eq_true_eq] at allowed
      obtain ⟨⟨duty_lo, duty_hi⟩, flow_lo⟩ := allowed
      have flow_hi := flow.isLt
      exact State.Moves.respond
        (State.writePoint_moves (c := ⟨duty.toNat, flow.toNat⟩) ⟨duty_lo, duty_hi, flow_lo, by dsimp only; omega⟩ fits) ..
    · exact s.refuse_moves _
  · exact s.refuse_moves _

theorem execClearNotices_moves {flags : Half} (e : execClearNotices flags s = .next t) : s.Moves t := by
  refine hostCommand_moves ?_ e
  dsimp only
  split
  · exact s.refuse_moves _
  · exact (State.Move.aside rfl).moves

theorem execClearFanFault_moves {fan : Byte} (e : execClearFanFault fan s = .next t) : s.Moves t := by
  refine hostCommand_moves ?_ e
  split
  · exact s.refuse_moves _
  · split
    · next locked => exact State.Moves.respond (State.fanRead_moves fun ok => Fan.cleared_ok ok locked) ..
    · exact State.Moves.respond .refl ..

theorem execFactoryClear_moves (e : execFactoryClear s = .next t) : s.Moves t := by
  refine hostCommand_moves ?_ e
  split
  · exact s.beginClear_move.moves
  · exact s.refuse_moves _

theorem execReadDemand_moves {handle : Half} (e : execReadDemand handle s = .next t) : s.Moves t := by
  refine hostCommand_moves ?_ e
  split
  · exact State.Moves.respond .refl ..
  · exact State.Moves.respond .refl ..

theorem execReadStation_moves {address : Byte} (e : execReadStation address s = .next t) : s.Moves t := by
  refine hostCommand_moves ?_ e
  split
  · exact State.Moves.respond .refl ..
  · exact State.Moves.respond .refl ..

theorem execReadTap_moves {tap : Byte} (e : execReadTap tap s = .next t) : s.Moves t := by
  refine hostCommand_moves ?_ e
  split
  · exact State.Moves.respond .refl ..
  · exact State.Moves.respond .refl ..

theorem execReadFilter_moves {slot : Byte} (e : execReadFilter slot s = .next t) : s.Moves t := by
  refine hostCommand_moves ?_ e
  split
  · exact State.Moves.respond .refl ..
  · exact State.Moves.respond .refl ..

theorem execReadCal_moves {fan : Byte} (e : execReadCal fan s = .next t) : s.Moves t := by
  refine hostCommand_moves ?_ e
  split
  · exact State.Moves.respond .refl ..
  · exact State.Moves.respond .refl ..

theorem execGetParam_moves {ident : Byte} (e : execGetParam ident s = .next t) : s.Moves t := by
  refine hostCommand_moves ?_ e
  split
  · exact State.Moves.respond .refl ..
  · exact State.Moves.respond .refl ..

/-- A command that reports what stands. -/
theorem report_moves {report : State → List Byte} (e : (hostCommand s fun s => s.respond .ok (report s)) = .next t) : s.Moves t :=
  hostCommand_moves (State.Moves.respond .refl ..) e

/-- R184 step 5: what the block that owns a command makes of it is a chain of moves. -/
theorem runHost_moves (c : Instr) (e : runHost c s = .next t) : s.Moves t := by
  cases c with
  | fileDemand k l d x => exact execFileDemand_moves e
  | amendDemand h f l d => exact execAmendDemand_moves e
  | retireDemand h => exact execRetireDemand_moves e
  | measure x => exact execMeasure_moves e
  | cancelMeasure => exact execCancelMeasure_moves e
  | fitFilter i g n b => exact execFitFilter_moves e
  | retireFilter i => exact execRetireFilter_moves e
  | relearnExchanger => exact hostCommand_moves s.relearn_moves e
  | setParam i v => exact execSetParam_moves e
  | setMode m => exact execSetMode_moves e
  | setSource o x v => exact execSetSource_moves e
  | writeCal f p d q => exact execWriteCal_moves e
  | clearNotices f => exact execClearNotices_moves e
  | clearFanFault f => exact execClearFanFault_moves e
  | reset => exact hostCommand_moves s.commandReset_moves e
  | factoryClear => exact execFactoryClear_moves e
  | readDemand h => exact execReadDemand_moves e
  | readStation a => exact execReadStation_moves e
  | readTap x => exact execReadTap_moves e
  | readFilter i => exact execReadFilter_moves e
  | getParam i => exact execGetParam_moves e
  | readCal f => exact execReadCal_moves e
  | listDemands p => exact report_moves (report := fun s => s.demand.listing p.toNat) e
  | readResolution => exact report_moves (report := State.resolutionReport) e
  | readSensors => exact report_moves (report := fun s => s.sensing.report) e
  | readHumidity => exact report_moves (report := State.humidityReport) e
  | readMeasure => exact report_moves (report := State.measureReport) e
  | readFrost => exact report_moves (report := fun s => s.frost.report) e
  | readFans => exact report_moves (report := State.fanReport) e
  | readNotices => exact report_moves (report := State.noticeReport) e
  | _ =>
    obtain rfl := Host.Outcome.next.inj e
    exact .refl

theorem execBadCommand_moves {bytes : List Byte} (e : execBadCommand bytes s = .next t) : s.Moves t := by
  unfold execBadCommand at e
  split at e
  · obtain rfl := Host.Outcome.next.inj e
    exact .refl
  · exact hostCommand_moves (s.refuse_moves _) e
  · exact hostCommand_moves (s.refuse_moves _) e
  · exact runHost_moves _ e

/-! ### The events -/

theorem execTachWindowClose_moves {f : FanId} {samples : List Bool} (e : execTachWindowClose f samples s = .next t) :
    s.Moves t :=
  partEvent_moves ((s.setTach_move f _).moves.trans (State.countStall_moves _ f _)) e

theorem execRestEnd_moves {f : FanId} (e : execRestEnd f s = .next t) : s.Moves t := by
  refine partEvent_moves ?_ e
  dsimp only
  split
  · next rests => exact State.fanRead_moves fun ok => Fan.rested_ok ok rests
  · exact .refl

theorem execCleanRunEnd_moves {f : FanId} (e : execCleanRunEnd f s = .next t) : s.Moves t := by
  refine partEvent_moves ?_ e
  dsimp only
  split
  · exact (State.cleanRunEnd_move f).moves
  · exact .refl

theorem execSlewStep_moves {f : FanId} (e : execSlewStep f s = .next t) : s.Moves t := by
  refine partEvent_moves ?_ e
  dsimp only
  split
  · next ramps => exact State.slewStep_moves ramps
  · exact .refl

theorem execSteadinessReached_moves (e : execSteadinessReached s = .next t) : s.Moves t := by
  refine partEvent_moves ?_ e
  split
  · exact State.Moves.channelTail (State.Move.steady _).moves
  · exact .refl

theorem execPreheatPeriodStart_moves (e : execPreheatPeriodStart s = .next t) : s.Moves t := by
  have move : s.Move (s.setPreheater
      { s.drive.preheater with periodStart := s.clock.ms, pin := decide (0 < s.drive.preheater.effective) }) :=
    .preheater _ ⟨rfl, rfl⟩ fun _ pin => of_decide_eq_true pin
  exact partEvent_moves move.moves e

theorem execPreheatOnTimeEnd_moves (e : execPreheatOnTimeEnd s = .next t) : s.Moves t := by
  have move : s.Move (s.setPreheater
      { s.drive.preheater with pin := s.drive.preheater.pin && decide (100 ≤ s.drive.preheater.effective) }) := by
    refine .preheater _ ⟨rfl, rfl⟩ fun _ pin => ?_
    have full := of_decide_eq_true (Bool.and_eq_true _ _ ▸ pin).2
    exact Nat.lt_of_lt_of_le (by decide) full
  exact partEvent_moves move.moves e

theorem execDemandExpiry_moves {handle : Half} (e : execDemandExpiry handle s = .next t) : s.Moves t := by
  refine partEvent_moves ?_ e
  split
  · next found =>
    split
    · next timed => exact State.expireDemand_moves (DemandTable.find_mem found) timed
    · exact .refl
  · exact .refl

theorem execPollRoundStart_moves (e : execPollRoundStart s = .next t) : s.Moves t := by
  have move : s.Move { s with bus := { s.bus with
      stations := eachStation (fun x => { x with marked := x.due s.clock.seconds }) s.bus.stations } } :=
    .bus _ fun ok => ok.eachStation
      (fun x hx => ⟨hx.1, fun unconfigured => Station.due_of_unconfigured unconfigured _⟩) fun _ => rfl
  exact partEvent_moves move.moves e

theorem execPollSlot_moves (e : execPollSlot s = .next t) : s.Moves t := by
  refine partEvent_moves ?_ e
  split
  · next next_eq => exact (State.poll_move (Bus.nextPoll_served next_eq)).moves
  · exact .refl

theorem execPollEnd_moves (e : execPollEnd s = .next t) : s.Moves t :=
  partEvent_moves (State.setExchange_move fun _ served => served.endPoll).moves e

theorem execReportReceived_moves {chars : Option (List Byte)} (e : execReportReceived chars s = .next t) :
    s.Moves t := by
  refine partEvent_moves ?_ e
  split
  · exact (State.setExchange_move fun _ served => served.beginReply).moves
  · exact State.takeFrame_moves _

theorem execStationHoldExpiry_moves {n : StationId} (e : execStationHoldExpiry n s = .next t) : s.Moves t := by
  refine partEvent_moves ?_ e
  dsimp only
  split
  · exact .refl
  · refine State.Moves.notify (State.Move.bus _ fun ok => ?_).moves .sensor
    obtain ⟨stations, exchange⟩ := s.bus.ok_iff.1 ok
    exact ok.setStation (Station.holdExpired_withMark (stations n)) id exchange

theorem execSettleEnd_moves (e : execSettleEnd s = .next t) : s.Moves t := by
  refine partEvent_moves ?_ e
  split
  · next settling => exact (State.settleEnd_move settling).moves
  · exact .refl
  · exact .refl

theorem execReading_moves {conversion : Int} (e : execReading conversion s = .next t) : s.Moves t := by
  refine partEvent_moves ?_ e
  split
  · next sampling => exact State.takeReading_moves sampling conversion
  · exact .refl
  · exact .refl

theorem execTrimTimerExpiry_moves (e : execTrimTimerExpiry s = .next t) : s.Moves t := by
  refine partEvent_moves ?_ e
  split
  · exact State.trimExpiry_moves
  · exact .refl

theorem execFilterTimerExpiry_moves (e : execFilterTimerExpiry s = .next t) : s.Moves t := by
  refine partEvent_moves ?_ e
  split
  · exact State.fileFilter_moves
  · exact .refl

theorem execFrostTimerExpiry_moves (e : execFrostTimerExpiry s = .next t) : s.Moves t := by
  refine partEvent_moves ?_ e
  split
  · exact State.frostExpiry_moves
  · exact .refl

theorem execWindowEdge_moves (e : execWindowEdge s = .next t) : s.Moves t := by
  refine partEvent_moves ?_ e
  split
  · next cycles =>
    split
    · next edge => exact State.reachEdge_moves cycles edge
    · exact .refl
  · exact .refl

theorem execCycleWrap_moves (e : execCycleWrap s = .next t) : s.Moves t := by
  refine partEvent_moves ?_ e
  split
  · next cycles => exact State.wrapCycle_moves cycles
  · exact .refl

theorem execOperatingHoursAdvance_moves (e : execOperatingHoursAdvance s = .next t) : s.Moves t := by
  refine partEvent_moves ?_ e
  split
  · exact State.hourPassed_moves
  · exact .refl

theorem execStartupEnd_moves (e : execStartupEnd s = .next t) : s.Moves t := by
  refine partEvent_moves ?_ e
  split
  · next startup => exact State.enterMode_moves fun modes => modes.1
  · exact .refl

theorem execPinReset_moves {released : Option (BitVec 2)} (e : execPinReset released s = .next t) : s.Moves t := by
  obtain rfl := Host.Outcome.next.inj e
  cases released with
  | none => exact s.resetLow_moves
  | some straps => exact s.resetHigh_moves straps

theorem execFactoryClearDone_moves (e : execFactoryClearDone s = .next t) : s.Moves t := by
  refine partEvent_moves ?_ e
  split
  · exact s.cleared_move.moves.trans (State.commandReset_moves _)
  · exact .refl

theorem execStoreWriteStart_moves (e : execStoreWriteStart s = .next t) : s.Moves t :=
  partEvent_moves s.nextWrite_move.moves e

theorem execStoreWriteComplete_moves (e : execStoreWriteComplete s = .next t) : s.Moves t :=
  partEvent_moves s.finish_move.moves e

theorem execAnalogSample_moves {c : AnalogChannel} {v : Vector Int 8} (e : execAnalogSample c v s = .next t) :
    s.Moves t := partEvent_moves (s.moveChannel_moves c _ fun ok => Channel.take_ok ok _) e

theorem execHoldTimerExpiry_moves {c : AnalogChannel} (e : execHoldTimerExpiry c s = .next t) : s.Moves t :=
  partEvent_moves (s.moveChannel_moves c _ Channel.expire_ok) e

theorem execContactLevelChange_moves {c : Contact} {samples : List Bool}
    (e : execContactLevelChange c samples s = .next t) : s.Moves t :=
  partEvent_moves (State.samples_moves c samples s) e

theorem execHumiditySample_moves {i : SourceId} (e : execHumiditySample i s = .next t) : s.Moves t :=
  partEvent_moves (State.humiditySample_move i).moves e

theorem execInhibitTimerExpiry_moves {i : SourceId} (e : execInhibitTimerExpiry i s = .next t) : s.Moves t :=
  partEvent_moves (State.inhibitExpiry_move i).moves e

theorem execVolumeAddition_moves (e : execVolumeAddition s = .next t) : s.Moves t :=
  partEvent_moves (State.volumeAddition_move _ _).moves e

theorem execLoadingEnd_moves (e : execLoadingEnd s = .next t) : s.Moves t :=
  partEvent_moves (State.Move.aside (s := s) rfl).moves e

/-- R184 step 5: a command of the host is executed by the block that owns it. -/
theorem exec_of_encoded {c : Instr} (h : (encodeWrite c).isSome = true) : exec c s = runHost c s := by
  cases c
  all_goals solve | rfl | cases h

/-- What a command or an event does is a chain of moves. -/
theorem exec_moves (c : Instr) (e : exec c s = .next t) : s.Moves t := by
  cases c with
  | badCommand bytes => exact execBadCommand_moves e
  | factoryClearDone => exact execFactoryClearDone_moves e
  | powerReset straps =>
    obtain rfl := Host.Outcome.next.inj e
    exact s.supplyRise_moves straps
  | pinReset released => exact execPinReset_moves e
  | storeWriteStart => exact execStoreWriteStart_moves e
  | storeWriteComplete => exact execStoreWriteComplete_moves e
  | analogSample c v => exact execAnalogSample_moves e
  | holdTimerExpiry c => exact execHoldTimerExpiry_moves e
  | startupEnd => exact execStartupEnd_moves e
  | contactLevelChange c samples => exact execContactLevelChange_moves e
  | tachWindowClose f samples => exact execTachWindowClose_moves e
  | restEnd f => exact execRestEnd_moves e
  | cleanRunEnd f => exact execCleanRunEnd_moves e
  | slewStep f => exact execSlewStep_moves e
  | steadinessReached => exact execSteadinessReached_moves e
  | preheatPeriodStart => exact execPreheatPeriodStart_moves e
  | preheatOnTimeEnd => exact execPreheatOnTimeEnd_moves e
  | demandExpiry h => exact execDemandExpiry_moves e
  | pollRoundStart => exact execPollRoundStart_moves e
  | pollSlot => exact execPollSlot_moves e
  | reportReceived chars => exact execReportReceived_moves e
  | replyBadCharacter => exact partEvent_moves s.judgeMiss_moves e
  | replyTimeout => exact partEvent_moves s.judgeMiss_moves e
  | stationHoldExpiry n => exact execStationHoldExpiry_moves e
  | humiditySample i => exact execHumiditySample_moves e
  | inhibitTimerExpiry i => exact execInhibitTimerExpiry_moves e
  | settleEnd => exact execSettleEnd_moves e
  | reading v => exact execReading_moves e
  | trimTimerExpiry => exact execTrimTimerExpiry_moves e
  | filterTimerExpiry => exact execFilterTimerExpiry_moves e
  | frostTimerExpiry => exact execFrostTimerExpiry_moves e
  | frostEvaluation => exact partEvent_moves s.evaluateFrost_moves e
  | windowEdge => exact execWindowEdge_moves e
  | cycleWrap => exact execCycleWrap_moves e
  | volumeAddition => exact execVolumeAddition_moves e
  | operatingHoursAdvance => exact execOperatingHoursAdvance_moves e
  | pollEnd => exact execPollEnd_moves e
  | loadingEnd => exact execLoadingEnd_moves e
  | powerLoss =>
    obtain rfl := Host.Outcome.next.inj e
    exact s.supplyLoss_moves
  | _ => exact runHost_moves _ ((exec_of_encoded rfl).symm.trans e)

/-! ### The passing of time -/

/-- A millisecond in the blocks: the exchange, the drive, the request timers and the write in progress, one after another. -/
theorem State.tickMs_moves (s : State) : s.Moves s.tickMs := by
  let bus : State := { s with bus := { s.bus with exchange := s.bus.exchange.tickMs } }
  let drive : State := { bus with drive :=
    { s.drive with sup := s.drive.sup.tickMs, ext := s.drive.ext.tickMs, elapsed := s.drive.elapsed + 1 } }
  let pressure : State := { drive with pressure :=
    { s.pressure with
      trimTimer := s.pressure.trimTimer.map countDown
      filterTimer := s.pressure.filterTimer.map countDown
      frostTimer := s.pressure.frostTimer.map countDown } }
  let store : State := { pressure with store :=
    { s.store with writeElapsed := s.store.writeElapsed + (if s.store.writing.isSome then 1 else 0) } }
  have to_bus : s.Move bus := State.setExchange_move fun _ served => served.tickMs
  have to_drive : bus.Move drive :=
    .fans _ _ _ (Nat.le_succ _) ⟨⟨rfl, rfl, rfl, rfl⟩, rfl, rfl, rfl, rfl⟩ ⟨Fan.tickMs_ok, Fan.tickMs_ok⟩
  have to_pressure : drive.Move pressure := .pressure _ (fun ok => ok.congr rfl rfl rfl rfl rfl rfl rfl) .inl
  have to_store : pressure.Move store := .store _ (fun settings => settings.2.2.2) id
  have rest : store.Move s.tickMs := .aside rfl
  exact ((((to_bus.moves).tail to_drive).tail to_pressure).tail to_store).tail rest

/-- A second of the remaining times moves nothing else of a record. -/
theorem DemandTable.tickSecond_tableTo (s : State) : s.TableTo s.demand.tickSecond where
  ok ok _ := ok.tickSecond
  entries ok := ok.congr rfl (s.demand.tickSecond_map _ fun _ _ => rfl)
  ask _ := DemandTable.humidityAsk_congr (s.demand.tickSecond_map _ fun _ _ => rfl)

/-- A whole second in the blocks, one after another. -/
theorem State.tickSecond_moves (s : State) : s.Moves s.tickSecond := by
  let sensing : State := { s with sensing := s.sensing.tickSecond }
  let demand : State := { sensing with demand := s.demand.tickSecond }
  let bus : State := { demand with bus := s.bus.tickSecond }
  let humidity : State := { bus with humidity := s.humidity.tickSecond }
  let drive : State := { humidity with drive :=
    { s.drive with sup := s.drive.sup.tickSecond, ext := s.drive.ext.tickSecond } }
  let frost : State := { drive with frost := s.frost.tickStop.tickCounter }
  have to_sensing : s.Move sensing := .sensing _ fun ok => ok.tickSecond
  have to_demand : sensing.Move demand :=
    .table _ (DemandTable.tickSecond_tableTo sensing) fun _ => s.demand.tickSecond_map _ fun _ _ => rfl
  have to_bus : demand.Move bus := .bus _ fun ok => ok.tickSecond
  have to_humidity : bus.Move humidity := .inhibit _ fun i => ⟨countDown (s.humidity.source i).inhibit, by
    cases i with
    | extract => rfl
    | station n => exact eachStation_getElem _ _ n⟩
  have to_drive : humidity.Move drive :=
    .fans _ _ _ (Nat.le_refl _) ⟨⟨rfl, rfl, rfl, rfl⟩, rfl, rfl, rfl, rfl⟩ ⟨Fan.tickSecond_ok, Fan.tickSecond_ok⟩
  have to_frost : drive.Move frost := State.frost_quiet_move Frost.tick_ok (Frost.tick_same _)
  have rest : frost.Move s.tickSecond := .aside rfl
  exact ((((((to_sensing.moves).tail to_demand).tail to_bus).tail to_humidity).tail to_drive).tail to_frost).tail rest

theorem State.advance_moves (s : State) : s.Moves s.advance := by
  unfold State.advance
  split
  · exact s.tickMs_moves.trans (State.tickSecond_moves _)
  · exact s.tickMs_moves

theorem State.idle_moves (s : State) : s.Moves s.idle := by
  unfold State.idle
  split
  · split
    · exact (State.Move.aside rfl).moves
    · exact s.advance_moves
  · exact .refl

/-- A step is a chain of moves. -/
theorem step_moves (e : step s = .next t) : s.Moves t := by
  unfold step at e
  split at e
  · next rest _ =>
    have taken : s.Move { s with pending := rest } := .aside rfl
    exact taken.moves.trans (exec_moves _ e)
  · obtain rfl := Host.Outcome.next.inj e
    exact s.idle_moves

end

end Sys2Proof.Machine

/-! PROOFS. What every move keeps, block by block, and so what every step keeps. -/

namespace Sys2Proof.Machine

variable {s t : State}

/-! ### The compound moves, said once -/

/-- What the following of the HUMIDITY record may move. -/
theorem State.alignHumidity_rest (s : State) :
    s.alignHumidity =
      { s with
        demand := s.alignHumidity.demand
        resolver := { s.resolver with view := s.alignHumidity.resolver.view }
        drive := s.alignHumidity.drive, pressure := s.alignHumidity.pressure } := by
  obtain ⟨d, -, ⟨same, -⟩ | same⟩ := s.alignHumidity_cases
  · rw [same]
  · rw [same, (State.inputChanged_recomputedTo _).1]

/-- A recompute moves the drive as its requests ask. -/
theorem State.recompute_followedBy (s : State) : s.drive.FollowedBy s.recompute.drive := by
  obtain ⟨q, same, -⟩ := s.recompute.channelTail_spec
  have followed := (State.inputChanged_recomputedTo s).2.1
  rwa [show s.inputChanged = s.recompute.channelTail from rfl, same] at followed

/-! ### R7 to R10: the channels -/

theorem State.Move.channelsOk (m : s.Move t) (ok : s.sensing.ChannelsOk) : t.sensing.ChannelsOk := by
  cases m with
  | aside same => rw [same]; exact ok
  | sensing x kept => exact kept ok
  | paramsRead | tableRead | frostRead | mode | filtersRead | fanRead => rw [State.recompute_eq]; exact ok
  | align => rw [State.alignHumidity_rest]; exact ok
  | drive => rw [State.driveTail_eq]; exact ok
  | reload => exact fun c => by cases c <;> exact Channel.afterReset_ok
  | _ => exact ok

/-- Settles O30: each move that reaches a channel keeps the six. -/
theorem everyStepKeepsTheChannels : Obligations.EveryStepKeepsTheChannels :=
  fun _ _ ok e => (step_moves e).keeps (fun _ _ => State.Move.channelsOk) ok

/-! ### R51 to R60: the stations -/

theorem State.Move.busOk (m : s.Move t) (ok : s.bus.Ok) : t.bus.Ok := by
  cases m with
  | aside same => rw [same]; exact ok
  | bus b kept => exact kept ok
  | paramsRead | tableRead | frostRead | mode | filtersRead | fanRead => rw [State.recompute_eq]; exact ok
  | align => rw [State.alignHumidity_rest]; exact ok
  | drive => rw [State.driveTail_eq]; exact ok
  | reload => exact Bus.afterReset_ok _
  | _ => exact ok

/-- Settles O42: each move of the bus keeps its records and the exchange in flight. -/
theorem everyStepKeepsTheStations : Obligations.EveryStepKeepsTheStations :=
  fun _ _ ok e => (step_moves e).keeps (fun _ _ => State.Move.busOk) ok

/-! ### R128 to R141: the pressure channel -/

theorem Pressure.Ok.fresh {p : Pressure} (ok : p.Ok) (b : Bool) : Pressure.Ok { p with fresh := b } :=
  ok.congr rfl rfl rfl rfl rfl rfl rfl

theorem Pressure.afterReset_ok (p : Params) (b : Baseline) : (Pressure.afterReset p b).Ok := by
  refine (Pressure.ok_iff_of_free rfl).2 ⟨fun x q asked => ?_, ⟨?_, ?_, ?_⟩, Nat.zero_le _⟩
  · cases x <;> cases asked
  all_goals simp [Pressure.afterReset]

theorem State.recompute_pressureOk (ok : s.pressure.Ok) : s.recompute.pressure.Ok := by
  rw [State.recompute_eq]; exact ok.fresh _

theorem State.Move.pressureOk (m : s.Move t) (ok : s.pressure.Ok) : t.pressure.Ok := by
  cases m with
  | aside same => rw [same]; exact ok
  | pressure p kept => exact kept ok
  | paramsRead | tableRead | frostRead | mode | filtersRead | fanRead => exact State.recompute_pressureOk ok
  | align h =>
    obtain ⟨d, -, ⟨same, -⟩ | same⟩ := State.alignHumidity_cases { s with humidity := h }
    · rw [same]; exact ok
    · rw [same]; exact State.channelTail_ok (State.recompute_pressureOk (s := { s with humidity := h, demand := d }) ok)
  | paramsSteady | steady => exact ok.fresh _
  | drive => rw [State.driveTail_eq]; exact ok.fresh _
  | reload => exact Pressure.afterReset_ok _ _
  | _ => exact ok

/-- Settles O52: each move of the channel keeps it, whatever the gates decide. -/
theorem everyStepKeepsThePressureChannel : Obligations.EveryStepKeepsThePressureChannel :=
  fun _ _ ok e => (step_moves e).keeps (fun _ _ => State.Move.pressureOk) ok

/-! ### R186, R106 and R193: the settings -/

theorem State.SettingsOk.of_reload {cause : ResetCause} {straps : BitVec 2} (store : s.store.Ok) :
    (s.reload cause straps).SettingsOk := by
  obtain ⟨params, cals, mode, -⟩ := store
  refine ⟨?_, ?_, ?_, params, cals, mode, fun _ h => by cases h⟩
  · show (s.store.params.getD .default).Ok
    cases loaded : s.store.params with
    | none => exact Params.default_ok
    | some p => exact params p loaded
  · show (s.store.cals.getD .default).Ok
    cases loaded : s.store.cals with
    | none => exact Calibrations.default_ok
    | some c => exact cals c loaded
  · show (s.store.mode.getD .standby).storable = true
    cases loaded : s.store.mode with
    | none => rfl
    | some m => exact mode m loaded

theorem State.Move.settingsOk (m : s.Move t) (ok : s.SettingsOk) : t.SettingsOk := by
  obtain ⟨params, cals, stored, store⟩ := ok
  have followed {d e : Drive} (same : d.cals = s.drive.cals) (f : d.FollowedBy e) : e.cals.Ok := by
    rw [f.1]; exact same ▸ cals
  have recomputed (u : State) (same : u.drive.cals = s.drive.cals) : u.recompute.drive.cals.Ok :=
    followed same u.recompute_followedBy
  cases m with
  | aside same => rw [same]; exact ⟨params, cals, stored, store⟩
  | store m kept => exact ⟨params, cals, stored, kept ⟨params, cals, stored, store⟩⟩
  | stored m named => exact ⟨params, cals, named, store⟩
  | params p kept | paramsSteady p kept => exact ⟨kept params, cals, stored, store⟩
  | paramsRead p kept =>
    have drive := recomputed { s with params := p } rfl
    rw [State.recompute_eq]; exact ⟨kept params, drive, stored, store⟩
  | tableRead d =>
    have drive := recomputed { s with demand := d } rfl
    rw [State.recompute_eq]; exact ⟨params, drive, stored, store⟩
  | frostRead g =>
    have drive := recomputed { s with frost := g } rfl
    rw [State.recompute_eq]; exact ⟨params, drive, stored, store⟩
  | mode m d g named sources =>
    have drive := recomputed
      { s with resolver := { s.resolver with mode := m, pending := m }, drive := d, frost := g }
      (by rcases sources with rfl | rfl <;> rfl)
    rw [State.recompute_eq]; exact ⟨params, drive, stored, store⟩
  | filtersRead f =>
    have drive := recomputed { s with filters := f } rfl
    rw [State.recompute_eq]; exact ⟨params, drive, stored, store⟩
  | fanRead f x =>
    have drive := recomputed { s with drive := s.drive.moveFan f x } (Drive.moveFan_rest s.drive f x).1
    rw [State.recompute_eq]; exact ⟨params, drive, stored, store⟩
  | align h =>
    have drive : State.SettingsOk (State.alignHumidity { s with humidity := h }) := by
      obtain ⟨d, -, ⟨same, -⟩ | same⟩ := State.alignHumidity_cases { s with humidity := h }
      · rw [same]; exact ⟨params, cals, stored, store⟩
      · obtain ⟨rest, drive, -⟩ := State.inputChanged_recomputedTo { s with humidity := h, demand := d }
        rw [same]
        exact ⟨by rw [rest]; exact params, followed rfl drive, by rw [rest]; exact stored, by rw [rest]; exact store⟩
    exact drive
  | drive d kept => rw [State.driveTail_eq]; exact ⟨params, kept.cals ⟨params, cals, stored, store⟩, stored, store⟩
  | reload => exact .of_reload store
  | _ => exact ⟨params, cals, stored, store⟩

end Sys2Proof.Machine

/-! PROOFS. What every move keeps of the demand table, the HUMIDITY record and the frost guard, and so what every step keeps. -/

namespace Sys2Proof.Machine

variable {s t : State}

/-! ### R23 to R31 and R68: the demand table and the sources -/

theorem DemandTable.afterReset_ok : DemandTable.afterReset.Ok := by
  refine ⟨⟨by decide, by decide⟩, nofun, fun g hg => ?_, .nil, .nil, by decide, by decide⟩
  rw [Vector.eq_of_mem_replicate (Vector.mem_toList_iff.1 hg)]
  exact Nat.zero_le _

/-- R26 and R68: the demand table, the settings and the sources that it is filed from. -/
structure State.TableOk (s : State) : Prop where
  demand : s.demand.Ok
  settings : s.SettingsOk
  sources : s.humidity.SourcesOk

theorem Humidity.SourcesOk.inhibit {h k : Humidity} (ok : h.SourcesOk)
    (same : ∀ i, ∃ n, k.source i = { h.source i with inhibit := n }) : k.SourcesOk := fun i => by
  obtain ⟨n, eq⟩ := same i
  rw [eq]
  exact (ok i).inhibit n

theorem Humidity.afterReset_ok : Humidity.afterReset.SourcesOk := fun i => by
  rw [Humidity.afterReset_source]; exact Source.afterReset_ok

theorem State.Move.tableOk (m : s.Move t) (ok : s.TableOk) : t.TableOk := by
  refine ⟨?_, m.settingsOk ok.settings, ?_⟩
  all_goals obtain ⟨demand, settings, sources⟩ := ok
  · cases m with
    | aside same => rw [same]; exact demand
    | table d kept => exact kept.ok demand settings
    | tableRead d kept => rw [State.recompute_eq]; exact kept.ok demand settings
    | paramsRead | frostRead | mode | filtersRead | fanRead => rw [State.recompute_eq]; exact demand
    | align h kept =>
      obtain ⟨d, aligned, ⟨same, -⟩ | same⟩ := State.alignHumidity_cases { s with humidity := h }
      · rw [same]; exact aligned.ok demand (kept settings sources)
      · rw [same, (State.inputChanged_recomputedTo _).1]; exact aligned.ok demand (kept settings sources)
    | drive => rw [State.driveTail_eq]; exact demand
    | reload => exact DemandTable.afterReset_ok
    | _ => exact demand
  · cases m with
    | aside same => rw [same]; exact sources
    | inhibit h same => exact sources.inhibit same
    | paramsRead | tableRead | frostRead | mode | filtersRead | fanRead => rw [State.recompute_eq]; exact sources
    | align h kept => rw [State.alignHumidity_rest]; exact kept settings sources
    | drive => rw [State.driveTail_eq]; exact sources
    | reload => exact Humidity.afterReset_ok
    | _ => exact sources

/-- Settles O24: each move keeps the table, the settings and the sources together. -/
theorem everyStepKeepsTheDemandTable : Obligations.EveryStepKeepsTheDemandTable := fun _ _ demand settings sources e =>
  have ok := (step_moves e).keeps (fun _ _ => State.Move.tableOk) ⟨demand, settings, sources⟩
  ⟨ok.demand, ok.settings, ok.sources⟩

/-! ### R82: the HUMIDITY record -/

theorem topLevel_congr {xs ys : List Source} (same : xs.map Source.level = ys.map Source.level) :
    topLevel xs = topLevel ys := by
  have fold (zs : List Source) : topLevel zs = (zs.map Source.level).foldl (fun m l => max m (l.getD 0)) 0 := by
    rw [List.foldl_map]; rfl
  rw [fold, fold, same]

/-- The contributors ask by their states, levels and NO_DRYING alone. -/
theorem Humidity.wanted_of_inhibit {h k : Humidity} (same : ∀ i, ∃ n, k.source i = { h.source i with inhibit := n }) :
    k.wanted = h.wanted := by
  have filtered (p : Source → Bool) (hp : ∀ x n, p { x with inhibit := n } = p x) :
      ((SourceId.all.map k.source).filter p).map Source.level = ((SourceId.all.map h.source).filter p).map Source.level := by
    have chosen : p ∘ k.source = p ∘ h.source := funext fun i => by
      obtain ⟨n, eq⟩ := same i
      exact (congrArg p eq).trans (hp _ n)
    rw [List.filter_map, List.filter_map, List.map_map, List.map_map, chosen]
    refine List.map_congr_left fun i _ => ?_
    obtain ⟨n, eq⟩ := same i
    exact (congrArg Source.level eq :)
  have members : k.members.map Source.level = h.members.map Source.level := filtered _ fun _ _ => rfl
  have drying : k.drying.map Source.level = h.drying.map Source.level := by
    simp only [Humidity.drying, Humidity.members, List.filter_filter]
    exact filtered _ fun _ _ => rfl
  have empty {xs ys : List Source} (eq : xs.map Source.level = ys.map Source.level) : xs = [] ↔ ys = [] := by
    rw [← List.map_eq_nil_iff (f := Source.level), eq, List.map_eq_nil_iff]
  simp only [Humidity.wanted_eq, topLevel_congr members, topLevel_congr drying, empty members, empty drying]

theorem State.Move.recordAligned (m : s.Move t) (ok : s.TableOk) (aligned : s.demand.humidityAsk = s.humidity.wanted) :
    t.demand.humidityAsk = t.humidity.wanted := by
  obtain ⟨demand, settings, sources⟩ := ok
  cases m with
  | aside same => rw [same]; exact aligned
  | table d kept => exact (kept.ask demand).trans aligned
  | tableRead d kept => rw [State.recompute_eq]; exact (kept.ask demand).trans aligned
  | inhibit h same => exact aligned.trans (Humidity.wanted_of_inhibit same).symm
  | paramsRead | frostRead | mode | filtersRead | fanRead => rw [State.recompute_eq]; exact aligned
  | align h kept =>
    obtain ⟨d, follows, ⟨same, -⟩ | same⟩ := State.alignHumidity_cases { s with humidity := h }
    · rw [same]; exact follows.ask demand (kept settings sources)
    · rw [same, (State.inputChanged_recomputedTo _).1]; exact follows.ask demand (kept settings sources)
  | drive => rw [State.driveTail_eq]; exact aligned
  | reload => rfl
  | _ => exact aligned

/-- Settles O45: a move that reaches the table or the sources leaves the record as the contributors ask. -/
theorem everyStepKeepsTheHumidityRecord : Obligations.EveryStepKeepsTheHumidityRecord :=
  fun _ _ demand settings aligned sources e =>
    have kept := (step_moves e).keeps
      (P := fun u => u.TableOk ∧ u.demand.humidityAsk = u.humidity.wanted)
      (fun _ _ m ok => ⟨m.tableOk ok.1, m.recordAligned ok.1 ok.2⟩) ⟨⟨demand, settings, sources⟩, aligned⟩
    ⟨kept.2, kept.1.sources⟩

/-! ### R148 and R156 to R158: the frost guard -/

/-- R164: the guard, with the settings and the modes that it follows. -/
structure State.GuardOk (s : State) : Prop where
  settings : s.SettingsOk
  modes : s.resolver.ModesOk
  cycle : s.frost.CycleOk
  counts : s.frost.CountsOk
  stand : s.StandDownOk

theorem State.Move.modesOk (m : s.Move t) (settings : s.SettingsOk) (ok : s.resolver.ModesOk) : t.resolver.ModesOk := by
  cases m with
  | aside same => rw [same]; exact ok
  | pendingMode m named startup => exact ⟨named, fun h => absurd startup h⟩
  | mode m d g named => rw [State.recompute_eq]; exact ⟨named ok, fun _ => rfl⟩
  | paramsRead | tableRead | frostRead | filtersRead | fanRead => rw [State.recompute_eq]; exact ok
  | align => rw [State.alignHumidity_rest]; exact ok
  | drive => rw [State.driveTail_eq]; exact ok
  | reload cause straps =>
    have stored := (State.SettingsOk.of_reload (cause := cause) (straps := straps) settings.2.2.2).2.2.1
    refine ⟨fun h => ?_, fun h => absurd rfl h⟩
    rw [show (s.reload cause straps).resolver.stored = .startup from h] at stored
    cases stored
  | _ => exact ok

theorem Frost.afterReset_ok (p : Params) (b : Baseline) :
    (Frost.afterReset p b).CycleOk ∧ (Frost.afterReset p b).CountsOk :=
  ⟨⟨rfl, rfl, rfl, rfl⟩, by simp [Frost.afterReset]⟩

theorem State.Move.guardCounts (m : s.Move t) (ok : s.GuardOk) : t.frost.CycleOk ∧ t.frost.CountsOk := by
  obtain ⟨settings, modes, cycle, counts, stand⟩ := ok
  cases m with
  | aside same => rw [same]; exact ⟨cycle, counts⟩
  | frost g kept => exact kept.ok settings cycle counts
  | frostRead g kept => rw [State.recompute_eq]; exact kept.ok settings cycle counts
  | mode m d g named sources guard => rw [State.recompute_eq]; exact guard settings cycle counts
  | paramsRead | tableRead | filtersRead | fanRead => rw [State.recompute_eq]; exact ⟨cycle, counts⟩
  | align => rw [State.alignHumidity_rest]; exact ⟨cycle, counts⟩
  | drive => rw [State.driveTail_eq]; exact ⟨cycle, counts⟩
  | reload => exact Frost.afterReset_ok _ _
  | _ => exact ⟨cycle, counts⟩

/-- What judges the gates files and withdraws no LINK request. -/
theorem Pressure.FollowedBy.link_none {p q : Pressure} (h : p.FollowedBy q) (idle : p.link = none) : q.link = none := by
  have same : q.link.isSome = p.link.isSome := h.2 .link
  rw [idle] at same
  exact Option.not_isSome_iff_eq_none.1 (ne_true_of_eq_false same)

theorem State.Move.standDownOk (m : s.Move t) (ok : s.GuardOk) : t.StandDownOk := by
  obtain ⟨settings, modes, cycle, counts, stand⟩ := ok
  cases m with
  | aside same => rw [same]; exact stand
  | pressure p kept link =>
    intro stopped
    obtain ⟨stage, fallback, idle⟩ := stand stopped
    refine ⟨stage, fallback, Option.not_isSome_iff_eq_none.1 fun some => ?_⟩
    rcases link some with old | runs
    · rw [idle] at old; cases old
    · rw [show s.resolver.mode.stopped = true from stopped] at runs; cases runs
  | frost g kept =>
    exact fun stopped =>
      have ⟨stage, fallback, idle⟩ := stand stopped
      have ⟨stage, fallback⟩ := kept.stand stopped ⟨stage, fallback⟩
      ⟨stage, fallback, idle⟩
  | frostRead g kept =>
    rw [State.recompute_eq]
    exact fun stopped =>
      have ⟨stage, fallback, idle⟩ := stand stopped
      have ⟨stage, fallback⟩ := kept.stand stopped ⟨stage, fallback⟩
      ⟨stage, fallback, idle⟩
  | mode m d g named sources guard stands =>
    rw [State.recompute_eq]
    intro stopped
    cases m with
    | standby => exact stands rfl
    | startup => exact absurd rfl (named modes)
    | run | commission => cases stopped
  | paramsRead | tableRead | filtersRead | fanRead => rw [State.recompute_eq]; exact stand
  | align h =>
    obtain ⟨d, -, ⟨same, -⟩ | same⟩ := State.alignHumidity_cases { s with humidity := h }
    · rw [same]; exact stand
    · obtain ⟨rest, -, channel, -⟩ := State.inputChanged_recomputedTo { s with humidity := h, demand := d }
      rw [same]
      intro stopped
      rw [rest] at stopped
      obtain ⟨stage, fallback, idle⟩ := stand stopped
      exact ⟨by rw [rest]; exact stage, by rw [rest]; exact fallback, channel.link_none idle⟩
  | drive => rw [State.driveTail_eq]; exact stand
  | reload => exact fun _ => ⟨rfl, rfl, rfl⟩
  | _ => exact stand

theorem State.Move.guardOk (m : s.Move t) (ok : s.GuardOk) : t.GuardOk :=
  have ⟨cycle, counts⟩ := m.guardCounts ok
  ⟨m.settingsOk ok.settings, m.modesOk ok.settings ok.modes, cycle, counts, m.standDownOk ok⟩

/-- Settles O57: each move of the guard, of the mode or of the LINK request keeps the guard in its ranges and standing down. -/
theorem everyStepKeepsTheFrostGuard : Obligations.EveryStepKeepsTheFrostGuard :=
  fun _ _ settings modes cycle counts stand e =>
    have ok := (step_moves e).keeps (fun _ _ => State.Move.guardOk) ⟨settings, modes, cycle, counts, stand⟩
    ⟨ok.cycle, ok.counts, ok.stand⟩

end Sys2Proof.Machine

/-! PROOFS. What every move keeps of the fan drive and of the resolution, and so what every step keeps. -/

namespace Sys2Proof.Machine

variable {s t : State}

/-! ### What a recompute leaves -/

/-- R87 and R88: each fan has followed the request of the new view, and what hangs on the drive has settled. -/
theorem State.recompute_settled (s : State) :
    (∀ f, s.recompute.drive.fan f = (s.drive.fan f).follow
        (State.fanRequest { s with resolver := { s.resolver with view := resolve s } } f) (s.firstDuty f)
        s.params.slewInterval)
      ∧ s.recompute.RequestsCurrent ∧ s.recompute.drive.steady = s.recompute.steadyNow
      ∧ s.recompute.drive.preheater.effective = s.recompute.effectivePreheat
      ∧ s.recompute.drive.preheater.pin =
        (if s.recompute.drive.preheater.effective = s.drive.preheater.effective then s.drive.preheater.pin
        else decide (s.clock.ms - s.drive.preheater.periodStart < s.recompute.drive.preheater.effective * 100)) := by
  obtain ⟨q, same, -⟩ := s.recompute.channelTail_spec
  obtain ⟨-, -, -, requests, fans, -, steady, effective, pin, -⟩ := State.inputChanged_recomputedTo s
  rw [show s.inputChanged = s.recompute.channelTail from rfl, same] at requests fans steady effective pin
  generalize s.recompute = r at *
  exact ⟨fans, requests, steady, effective, pin⟩

/-! ### R105 to R123: the drive -/

/-- R123: PRE is high only above an effective duty of 0. -/
abbrev Preheater.PinOk (h : Preheater) : Prop := h.pin = true → 0 < h.effective

/-- R106, R111, R116, R117 and R123: the drive. -/
structure State.DriveOk (s : State) : Prop where
  trim : s.drive.TrimOk
  fans : ∀ f, (s.drive.fan f).Ok
  steady : s.SteadyOk
  preheat : s.PreheatOk

/-- R123: a duty that is formed again keeps PRE low at 0. -/
theorem Preheater.PinOk.formed {h k : Preheater} (ok : h.PinOk) {since : Nat}
    (pin : k.pin = if k.effective = h.effective then h.pin else decide (since < k.effective * 100)) : k.PinOk := by
  intro high
  rw [pin] at high
  split at high
  · next same => exact same ▸ ok high
  · have := of_decide_eq_true high
    omega

theorem State.recompute_driveOk (cals : s.drive.cals.Ok) (trim : s.drive.TrimOk) (fans : ∀ f, (s.drive.fan f).Ok)
    (pin : s.drive.preheater.PinOk) : s.recompute.DriveOk := by
  obtain ⟨followed, -, steady, effective, pin_eq⟩ := s.recompute_settled
  refine ⟨?_, fun f => ?_, fun on => steady ▸ on, effective, pin.formed pin_eq⟩
  · rw [Drive.TrimOk, s.recompute_followedBy.1]; exact trim
  · rw [followed]
    exact Fan.follow_ok (fans f) (State.fanRequest_le
      (s := { s with resolver := { s.resolver with view := resolve s } }) cals (fans f)) (State.firstDuty_range cals f) _

theorem State.DriveOk.channelTail (ok : s.DriveOk) : s.channelTail.DriveOk := by
  obtain ⟨q, same, -⟩ := s.channelTail_spec
  obtain ⟨trim, fans, steady, preheat⟩ := ok
  rw [same]
  exact ⟨trim, fans, steady, preheat⟩

theorem State.driveTail_driveOk (trim : s.drive.TrimOk) (fans : ∀ f, (s.drive.fan f).Ok)
    (pin : s.drive.preheater.PinOk) : s.driveTail.DriveOk := by
  obtain ⟨-, steady, effective, pin_eq, -⟩ := s.driveTail_settled
  refine ⟨?_, fun f => ?_, fun on => steady ▸ on, effective, pin.formed pin_eq⟩
  · rw [State.driveTail_eq]; exact trim
  · rw [State.driveTail_fan]; exact fans f

theorem Fan.afterReset_ok : Fan.afterReset.Ok := by decide

theorem State.reload_driveOk (cause : ResetCause) (straps : BitVec 2) : (s.reload cause straps).DriveOk where
  trim := ⟨by show 750 ≤ 1000; decide, by show 1000 ≤ 1250; decide⟩
  fans f := by cases f <;> exact Fan.afterReset_ok
  steady on := by cases on
  preheat := ⟨rfl, fun on => by cases on⟩

/-- A drive whose fans keep state, source and duties stays matched or not. -/
theorem Drive.matched_congr {d e : Drive} (sup : d.sup.SameDrive e.sup) (ext : d.ext.SameDrive e.ext) :
    e.matched = d.matched := by
  obtain ⟨sup_state, -, sup_requested, sup_commanded⟩ := sup
  obtain ⟨ext_state, -, ext_requested, ext_commanded⟩ := ext
  simp only [Drive.matched, sup_state, sup_requested, sup_commanded, ext_state, ext_requested, ext_commanded]

theorem State.steadyNow_iff : s.steadyNow = true ↔
    s.drive.matched = true ∧ s.params.nat .steadyTime * 1000 ≤ s.drive.elapsed := by simp [State.steadyNow]

theorem State.Move.driveOk (m : s.Move t) (settings : s.SettingsOk) (ok : s.DriveOk) : t.DriveOk := by
  have cals := settings.2.1
  obtain ⟨trim, fans, steady, preheat⟩ := ok
  cases m with
  | aside same => rw [same]; exact ⟨trim, fans, steady, preheat⟩
  | params p kept unread =>
    refine ⟨trim, fans, fun on => ?_, preheat⟩
    obtain ⟨matched, reached⟩ := State.steadyNow_iff.1 (steady on)
    refine State.steadyNow_iff.2 ⟨matched, ?_⟩
    rwa [Params.nat, unread .steadyTime (.inr rfl)]
  | paramsSteady p | steady n => exact ⟨trim, fans, id, preheat⟩
  | paramsRead p => exact State.recompute_driveOk (s := { s with params := p }) cals trim fans preheat.2
  | tableRead d => exact State.recompute_driveOk (s := { s with demand := d }) cals trim fans preheat.2
  | frostRead g => exact State.recompute_driveOk (s := { s with frost := g }) cals trim fans preheat.2
  | filtersRead f => exact State.recompute_driveOk (s := { s with filters := f }) cals trim fans preheat.2
  | mode m d g named sources =>
    rcases sources with rfl | rfl
    · exact State.recompute_driveOk cals trim fans preheat.2
    · refine State.recompute_driveOk (s := { s with
        resolver := { s.resolver with mode := m, pending := m }, drive := s.drive.allAuto, frost := g })
        cals trim (fun f => ?_) preheat.2
      have auto {x : Fan} (ok : x.Ok) : Fan.Ok { x with source := .auto } := by
        obtain ⟨running, commanded, requested, stall, attempts, few, rest, cleanRun, step, -⟩ := ok
        exact ⟨running, commanded, requested, stall, attempts, few, rest, cleanRun, step, nofun⟩
      cases f
      · exact auto (fans .sup)
      · exact auto (fans .ext)
  | fans sup ext elapsed later same kept =>
    refine ⟨trim, fun f => ?_, fun on => ?_, ?_, preheat.2⟩
    · cases f
      · exact kept.1 (fans .sup)
      · exact kept.2 (fans .ext)
    · obtain ⟨matched, reached⟩ := State.steadyNow_iff.1 (steady on)
      exact State.steadyNow_iff.2 ⟨(Drive.matched_congr same.1 same.2).trans matched, reached.trans later⟩
    · refine preheat.1.trans ?_
      obtain ⟨state, -, -, commanded⟩ := same.1
      simp only [State.effectivePreheat, state, commanded]
      rfl
  | fanRead f x kept =>
    obtain ⟨rest_cals, rest_trim, -, preheater⟩ := Drive.moveFan_rest s.drive f x
    refine State.recompute_driveOk (s := { s with drive := s.drive.moveFan f x }) (rest_cals ▸ cals)
      (by rw [Drive.TrimOk, rest_trim]; exact trim) (fun g => ?_) (preheater ▸ preheat.2)
    by_cases same : g = f
    · rw [same, Drive.fan_moveFan_self]; exact kept (fans f)
    · rw [Drive.fan_moveFan_of_ne _ _ same]; exact fans g
  | preheater h same pin =>
    refine ⟨trim, fans, steady, same.2.trans (preheat.1.trans ?_), pin preheat⟩
    simp only [State.effectivePreheat, State.requestedPreheat, same.1]
  | drive d kept =>
    refine State.driveTail_driveOk (s := { s with drive := d }) (kept.trim trim) (kept.fans settings fans) ?_
    obtain ⟨effective, pin⟩ := kept.preheater
    rw [Preheater.PinOk, effective, pin]
    exact preheat.2
  | align h =>
    obtain ⟨d, -, ⟨same, -⟩ | same⟩ := State.alignHumidity_cases { s with humidity := h }
    · rw [same]; exact ⟨trim, fans, steady, preheat⟩
    · let u : State := { s with humidity := h, demand := d }
      rw [same]
      exact (State.recompute_driveOk (s := u) cals trim fans preheat.2).channelTail
  | reload => exact State.reload_driveOk _ _
  | _ => exact ⟨trim, fans, steady, preheat⟩

theorem State.Move.queueOk (m : s.Move t) (ok : s.store.QueueOk) : t.store.QueueOk := by
  cases m with
  | aside same => rw [same]; exact ok
  | store m kept queue => exact queue ok
  | paramsRead | tableRead | frostRead | mode | filtersRead | fanRead => rw [State.recompute_eq]; exact ok
  | align => rw [State.alignHumidity_rest]; exact ok
  | drive => rw [State.driveTail_eq]; exact ok
  | reload =>
    show (if s.store.correctsFitting then [Block.filterRecords] else []).Nodup
    split
    · exact List.nodup_singleton _
    · exact .nil
  | _ => exact ok

/-- Settles O38: each move keeps the settings, the queue and the drive; a recompute and the drive's own tail form steadiness and
the preheater's duty afresh. -/
theorem everyStepKeepsTheSettingsAndTheFanDrive : Obligations.EveryStepKeepsTheSettingsAndTheFanDrive :=
  fun _ _ settings queue trim sup ext steady preheat e =>
    have kept := (step_moves e).keeps (P := fun u => u.SettingsOk ∧ u.store.QueueOk ∧ u.DriveOk)
      (fun _ _ m ok => ⟨m.settingsOk ok.1, m.queueOk ok.2.1, m.driveOk ok.1 ok.2.2⟩)
      ⟨settings, queue, trim, Drive.forall_fan.2 ⟨sup, ext⟩, steady, preheat⟩
    have ⟨settings, queue, ok⟩ := kept
    ⟨settings, queue, ok.trim, ok.fans .sup, ok.fans .ext, ok.steady, ok.preheat⟩

end Sys2Proof.Machine

/-! PROOFS. What the resolution reads, and that every step keeps the view and the requests formed from it. -/

namespace Sys2Proof.Machine

variable {s t : State}

/-! ### What the resolution reads -/

/-- R91: the oldest of the records that a comparison of levels prefers. -/
def oldestBy (better : Nat → Nat → Bool) (records : List DemandRecord) : Option DemandRecord :=
  records.foldl (fun best r => match best with
    | none => some r
    | some b => if better r.level b.level then some r else some b) none

theorem lowest_eq (records : List DemandRecord) : lowest records = oldestBy (fun a b => decide (a < b)) records := by
  unfold lowest oldestBy
  congr 1
  funext best r
  cases best <;> simp only [decide_eq_true_eq]

theorem highest_eq (records : List DemandRecord) : highest records = oldestBy (fun a b => decide (b < a)) records := by
  unfold highest oldestBy
  congr 1
  funext best r
  cases best <;> simp only [decide_eq_true_eq]

theorem DemandRecord.level_of_read {r q : DemandRecord} (h : r.read = q.read) : r.level = q.level :=
  congrArg (fun x => x.2.2.1) h

/-- Records that read alike are preferred alike. -/
theorem oldestBy_read (better : Nat → Nat → Bool) {xs ys : List DemandRecord}
    (same : xs.map DemandRecord.read = ys.map DemandRecord.read) :
    (oldestBy better xs).map DemandRecord.read = (oldestBy better ys).map DemandRecord.read := by
  unfold oldestBy
  suffices ∀ a b : Option DemandRecord, a.map DemandRecord.read = b.map DemandRecord.read →
      (xs.foldl _ a).map DemandRecord.read = (ys.foldl _ b).map DemandRecord.read from this none none rfl
  induction xs generalizing ys with
  | nil => cases ys with
    | nil => exact fun _ _ h => h
    | cons => cases same
  | cons x xs ih => cases ys with
    | nil => cases same
    | cons y ys =>
      obtain ⟨head, rest⟩ := List.cons.inj same
      refine fun a b h => ih rest _ _ ?_
      cases a <;> cases b
      · exact congrArg some head
      · cases h
      · cases h
      · next a b =>
        have old : a.read = b.read := Option.some.inj h
        dsimp only
        rw [DemandRecord.level_of_read head, DemandRecord.level_of_read old]
        split
        · exact congrArg some head
        · exact congrArg some old

/-- A filter by what is read keeps records that read alike alike. -/
theorem filter_asks_read (k : Kind) {xs ys : List DemandRecord}
    (same : xs.map DemandRecord.read = ys.map DemandRecord.read) :
    (xs.filter (·.asks k)).map DemandRecord.read = (ys.filter (·.asks k)).map DemandRecord.read := by
  have byRead (zs : List DemandRecord) : (zs.filter (·.asks k)).map DemandRecord.read =
      (zs.map DemandRecord.read).filter fun x => x.1 = k && !x.2.1 := by
    rw [List.filter_map]; rfl
  rw [byRead, byRead, same]

/-- R90 and R91: the demand is found from what is read of the records and two parameters. -/
theorem stepDemand_congr {p q : Params} {xs ys : List DemandRecord} (base : p.nat .baseLevel = q.nat .baseLevel)
    (same : xs.map DemandRecord.read = ys.map DemandRecord.read) : stepDemand p xs = stepDemand q ys := by
  have found {a b : Option DemandRecord} (h : a.map DemandRecord.read = b.map DemandRecord.read) :
      a = none ∧ b = none ∨ ∃ r r', a = some r ∧ b = some r' ∧ r.level = r'.level ∧ r.handle = r'.handle := by
    cases a <;> cases b
    · exact .inl ⟨rfl, rfl⟩
    · cases h
    · cases h
    · next r r' =>
      have eq : r.read = r'.read := Option.some.inj h
      exact .inr ⟨r, r', rfl, rfl, DemandRecord.level_of_read eq, congrArg (fun x => x.2.2.2) eq⟩
  have start : startLevel p xs = startLevel q ys := by
    unfold startLevel
    rw [lowest_eq, lowest_eq]
    rcases found (oldestBy_read _ (filter_asks_read .setback same)) with ⟨hx, hy⟩ | ⟨r, r', hx, hy, level, handle⟩
    · rw [hx, hy, base]
    · simp only [hx, hy, level, handle]
  have hold : (newestHold xs).map DemandRecord.read = (newestHold ys).map DemandRecord.read := by
    unfold newestHold
    rw [← List.getLast?_map, ← List.getLast?_map, filter_asks_read .hold same]
  unfold stepDemand
  rw [start, highest_eq, highest_eq]
  rcases found hold with ⟨hx, hy⟩ | ⟨r, r', hx, hy, level, handle⟩
  · rw [hx, hy]
    rcases found (oldestBy_read _ (filter_asks_read .boost same)) with ⟨hx, hy⟩ | ⟨r, r', hx, hy, level, handle⟩
    · rw [hx, hy]
    · simp only [hx, hy, level, handle]
  · simp only [hx, hy, level, handle]

/-- R87: what the resolution reads of a state. -/
structure State.SameInputs (s t : State) : Prop where
  params : ∀ x : Param, x.resolverReads = true → t.params.get x = s.params.get x
  live : t.demand.live.map DemandRecord.read = s.demand.live.map DemandRecord.read
  mode : t.resolver.mode = s.resolver.mode
  frost : t.frost.differs s.frost = false
  missing : t.filters.missing = s.filters.missing
  overdue : t.filters.anyIn .overdue = s.filters.anyIn .overdue
  available : ∀ f, (t.drive.fan f).state.available = (s.drive.fan f).state.available

/-- R87: the view is a function of the resolver's inputs. -/
theorem State.SameInputs.resolve_eq (h : s.SameInputs t) : resolve t = resolve s := by
  have nat (x : Param) (read : x.resolverReads = true) : t.params.nat x = s.params.nat x :=
    congrArg Int.toNat (h.params x read)
  obtain ⟨stage, reduction, preheat, reduce⟩ : t.frost.stage = s.frost.stage ∧ t.frost.reduction = s.frost.reduction
      ∧ t.frost.preheat = s.frost.preheat ∧ t.frost.windows.reduce = s.frost.windows.reduce := by
    simpa [Frost.differs, and_assoc] using h.frost
  have sup : t.drive.sup.state.available = s.drive.sup.state.available := h.available .sup
  have ext : t.drive.ext.state.available = s.drive.ext.state.available := h.available .ext
  have zero : t.zeroTargets = s.zeroTargets := by simp only [State.zeroTargets, h.mode, stage]
  have width : allowance t.params t.frost = allowance s.params s.frost := by
    simp only [allowance, reduce, nat .defrostAllowance rfl, nat .imbalanceLimit rfl]
  have asked := stepDemand_congr (nat .baseLevel rfl) h.live
  have limited (a : Asked) : stepLimits t.params a = stepLimits s.params a := by
    simp only [stepLimits, nat .minLevel rfl, nat .maxLevel rfl]
  have missing (d : Nat) : stepMissing t.params t.filters d = stepMissing s.params s.filters d := by
    simp only [stepMissing, h.missing, nat .minLevel rfl]
  have overdue (d : Nat) : stepOverdue t.params t.filters d = stepOverdue s.params s.filters d := by
    simp only [stepOverdue, h.overdue, nat .overdueCap rfl]
  have supply (d : Nat) : baseSupply t.params d = baseSupply s.params d := by
    simp only [baseSupply, nat .nominalFlow rfl]
  have extract (x : Nat) : baseExtract t.params x = baseExtract s.params x := by
    simp only [baseExtract, nat .extractRatio rfl]
  have frost (x : Nat) : stepFrost t.params t.frost x = stepFrost s.params s.frost x := by
    simp only [stepFrost, reduce, stage, reduction, nat .defrostSupply rfl]
  unfold resolve
  dsimp only
  simp only [zero, width, asked, limited, missing, overdue, supply, extract, frost, stage, preheat, reduce, sup, ext]

theorem Frost.differs_self (g : Frost) : g.differs g = false := by simp [Frost.differs]

/-- R97: the targets lie within the allowance of each other. -/
theorem resolve_balanced (s : State) : (resolve s).Balanced := by
  unfold resolve
  dsimp only
  split
  · exact ⟨Nat.zero_le _, Nat.zero_le _⟩
  · simp only [View.Balanced, stepBalance, stepAvailability]
    rw [clampNat_eq_min_max (by omega)]
    split <;> split <;> dsimp only <;> omega

/-! ### R87, R97, R101 and R109: the view and the requests -/

/-- R87 and R109: the view with the requests formed from it. -/
structure State.ViewOk (s : State) : Prop where
  view : s.ViewCurrent
  requests : s.RequestsCurrent

/-- The view and the requests stand where the resolver's inputs and what the requests are formed from do. -/
theorem State.ViewOk.congr (ok : s.ViewOk) (inputs : s.SameInputs t) (view : t.resolver.view = s.resolver.view)
    (formed : ∀ f, (t.drive.fan f).requested = (s.drive.fan f).requested ∧ t.fanRequest f = s.fanRequest f) : t.ViewOk where
  view := view.trans (ok.view.trans inputs.resolve_eq.symm)
  requests := (State.requestsCurrent_iff _).2 fun f => by
    rw [(formed f).1, (formed f).2]; exact s.requestsCurrent_iff.1 ok.requests f

theorem State.recompute_viewOk (s : State) : s.recompute.ViewOk := by
  have followed := s.recompute_followedBy
  refine ⟨?_, s.recompute_settled.2.1⟩
  have inputs : s.SameInputs s.recompute := by
    refine ⟨?_, ?_, ?_, ?_, ?_, ?_, fun f => (followed.2 f).2.2.2.2⟩
    · rw [State.recompute_eq]; exact fun _ _ => rfl
    · rw [State.recompute_eq]
    · rw [State.recompute_eq]
    · rw [State.recompute_eq]; exact s.frost.differs_self
    · rw [State.recompute_eq]
    · rw [State.recompute_eq]
  rw [State.ViewCurrent, inputs.resolve_eq, State.recompute_eq]

theorem State.ViewOk.channelTail (ok : s.ViewOk) : s.channelTail.ViewOk := by
  obtain ⟨q, same, -⟩ := s.channelTail_spec
  obtain ⟨view, requests⟩ := ok
  rw [same]
  exact ⟨view, requests⟩

theorem State.Move.viewOk (m : s.Move t) (entries : s.demand.EntriesOk) (ok : s.ViewOk) : t.ViewOk := by
  have refl : s.SameInputs s := ⟨fun _ _ => rfl, rfl, rfl, s.frost.differs_self, rfl, rfl, fun _ => rfl⟩
  cases m with
  | aside same => rw [same]; exact ⟨ok.view, ok.requests⟩
  | params p kept unread =>
    exact ok.congr { refl with params := fun x read => unread x (.inl read) } rfl fun _ => ⟨rfl, rfl⟩
  | paramsSteady p kept unread => exact ok.congr { refl with params := unread } rfl fun f => by cases f <;> exact ⟨rfl, rfl⟩
  | table d kept unread => exact ok.congr { refl with live := unread entries } rfl fun _ => ⟨rfl, rfl⟩
  | frost g kept unread =>
    have stage : g.stage = s.frost.stage := by
      simp only [Frost.differs, Bool.or_eq_false_iff, bne_eq_false_iff_eq] at unread
      exact unread.1.1.1
    refine ok.congr { refl with frost := unread } rfl fun f => ⟨rfl, ?_⟩
    simp only [State.fanRequest, State.forcedToZero, State.zeroTargets, stage]
    rfl
  | filters f unread => exact ok.congr { refl with missing := unread.1, overdue := unread.2 } rfl fun _ => ⟨rfl, rfl⟩
  | fans sup ext elapsed later same =>
    have kept (f : FanId) : (s.drive.fan f).SameDrive
        (({ s.drive with sup := sup, ext := ext, elapsed := elapsed } : Drive).fan f) := by
      cases f
      · exact same.1
      · exact same.2
    refine ok.congr { refl with available := fun f => congrArg FanState.available (kept f).1 } rfl
      fun f => ⟨(kept f).2.2.1, ?_⟩
    exact State.fanRequest_congr rfl rfl rfl rfl (kept f).2.1 (congrArg FanState.available (kept f).1)
  | preheater h => exact ok.congr { refl with } rfl fun f => by cases f <;> exact ⟨rfl, rfl⟩
  | steady n => exact ok.congr { refl with } rfl fun f => by cases f <;> exact ⟨rfl, rfl⟩
  | drive d kept =>
    have moved : State.ViewOk { s with drive := d } :=
      ⟨ok.view.trans (State.SameInputs.resolve_eq (t := { s with drive := d }) { refl with available := kept.available }).symm, kept.requests ok.requests⟩
    refine moved.congr (t := State.driveTail { s with drive := d }) ?_ ?_ fun f =>
      ⟨by rw [State.driveTail_fan], State.fanRequest_driveTail _ f⟩
    · rw [State.driveTail_eq]
      exact ⟨fun _ _ => rfl, rfl, rfl, s.frost.differs_self, rfl, rfl, fun f => by cases f <;> rfl⟩
    · rw [State.driveTail_eq]
  | paramsRead | tableRead | frostRead | mode | filtersRead | fanRead => exact State.recompute_viewOk _
  | align h =>
    obtain ⟨d, -, ⟨same, read⟩ | same⟩ := State.alignHumidity_cases { s with humidity := h }
    · rw [same]; exact ok.congr { refl with live := read entries } rfl fun _ => ⟨rfl, rfl⟩
    · rw [same]; exact (State.recompute_viewOk _).channelTail
  | reload => exact ⟨rfl, rfl, rfl⟩
  | _ => exact ⟨ok.view, ok.requests⟩

theorem State.Move.entriesOk (m : s.Move t) (ok : s.demand.EntriesOk) : t.demand.EntriesOk := by
  cases m with
  | aside same => rw [same]; exact ok
  | table d kept => exact kept.entries ok
  | tableRead d kept => rw [State.recompute_eq]; exact kept.entries ok
  | paramsRead | frostRead | mode | filtersRead | fanRead => rw [State.recompute_eq]; exact ok
  | align h =>
    obtain ⟨d, aligned, ⟨same, -⟩ | same⟩ := State.alignHumidity_cases { s with humidity := h }
    · rw [same]; exact aligned.entries ok
    · rw [same, (State.inputChanged_recomputedTo _).1]; exact aligned.entries ok
  | drive => rw [State.driveTail_eq]; exact ok
  | reload => exact DemandTable.afterReset_ok.1
  | _ => exact ok

/-- Settles O48: a move that changes what the resolver reads recomputes; any other leaves the view and the requests what they
are formed to be. -/
theorem everyStepKeepsTheView : Obligations.EveryStepKeepsTheView :=
  fun _ t demand settings view requests modes e =>
    have kept := (step_moves e).keeps
      (P := fun u => u.demand.EntriesOk ∧ u.SettingsOk ∧ u.ViewOk ∧ u.resolver.ModesOk)
      (fun _ _ m ok => ⟨m.entriesOk ok.1, m.settingsOk ok.2.1, m.viewOk ok.1 ok.2.2.1, m.modesOk ok.2.1 ok.2.2.2⟩)
      ⟨demand.1, settings, ⟨view, requests⟩, modes⟩
    have ⟨_, _, ok, modes⟩ := kept
    ⟨ok.view, ok.requests, modes, by rw [ok.view]; exact resolve_balanced t⟩

end Sys2Proof.Machine

/-! PROOFS. The queue's front, the state after a reset, and the demand table: handles, free entries and the commands that amend and
retire (R25, R31, R35, R38, R39, R82). -/

namespace Sys2Proof.Machine

/-- Settles O1: `step` matches on the queue. -/
theorem stepRunsTheFrontCommand : Obligations.StepRunsTheFrontCommand := fun c rest s front => by
  rw [step, front]

/-! ### The state after the first reset -/

theorem Store.blank_ok : Store.blank.Ok := by
  refine ⟨?_, ?_, ?_, ?_⟩
  all_goals
    intro _ h
    cases h

/-- Settles O60: every block after a reset meets its own invariant, and the view of STARTUP is zero. -/
theorem resetMeetsTheInvariants : Obligations.ResetMeetsTheInvariants := by
  obtain ⟨cycle, counts⟩ := Frost.afterReset_ok .default .default
  have channels (c : AnalogChannel) : (State.reset.sensing.channel c).Ok := by cases c <;> exact Channel.afterReset_ok
  have trim : State.reset.drive.TrimOk := ⟨by decide, by decide⟩
  have steady : State.reset.SteadyOk := fun on => by cases on
  have preheat : State.reset.PreheatOk := ⟨rfl, fun on => by cases on⟩
  have modes : State.reset.resolver.ModesOk := ⟨by decide, fun h => absurd rfl h⟩
  refine ⟨rfl, DemandTable.afterReset_ok, ⟨Params.default_ok, Calibrations.default_ok, rfl, Store.blank_ok⟩, .nil, channels,
    trim, Fan.afterReset_ok, Fan.afterReset_ok, steady, preheat, Bus.afterReset_ok _, rfl, Humidity.afterReset_ok, rfl,
    ⟨rfl, rfl⟩, modes, ⟨Nat.zero_le _, Nat.zero_le _⟩, Pressure.afterReset_ok _ _, cycle, counts, fun _ => ⟨rfl, rfl, rfl⟩⟩

/-! ### Handles and free entries -/

theorem DemandTable.handle_of_find {t : DemandTable} {h : Half} {r : DemandRecord} (found : t.find h = some r) :
    r.handle = h := by
  unfold DemandTable.find at found
  split at found
  · cases found
  · simpa using List.find?_some found

/-- Settles O16: a handle spells its record's entry and generation, by `DemandRecord.handle_eq`. -/
theorem handlesNameTheirRecords : Obligations.HandlesNameTheirRecords := by
  intro t ok
  have gens {r : DemandRecord} (live : r ∈ t.live) : r.gen ≤ 255 ∧ t.gens[r.entry] = r.gen :=
    ⟨(ok.2.1 r live).1.2.1, (ok.2.1 r live).2.1⟩
  refine ⟨fun h r => ⟨fun found => ?_, fun ⟨live, entry, gen⟩ => ?_⟩, fun r live => DemandTable.find_handle ok live, rfl⟩
  · have live := DemandTable.find_mem found
    obtain ⟨entry, gen⟩ := (r.handle_eq h (gens live).1).1 (DemandTable.handle_of_find found)
    exact ⟨live, entry, (gens live).2.trans gen⟩
  · rw [← (r.handle_eq h (gens live).1).2 ⟨entry, (gens live).2.symm.trans gen⟩]
    exact DemandTable.find_handle ok live

/-- Settles O17: the records that stand are too few, by origin and by the quota, to fill the table. -/
theorem aFreeEntryExistsForEveryFiling : Obligations.AFreeEntryExistsForEveryFiling := by
  intro t ok
  refine ⟨ok.free_of_quota, fun o internal absent => ok.free_of_absent internal fun r live origin => ?_⟩
  have boost : r.kind = .boost := (ok.2.1 r live).1.2.2.2.2.2.1 (origin ▸ internal)
  have := List.find?_eq_none.1 absent r live
  simp [origin, boost] at this

/-! ### AMEND_DEMAND and RETIRE_DEMAND -/

theorem memberOf_eq_none {α : Type} {members : List α} {code : Byte} (h : members.length ≤ code.toNat) :
    memberOf members code = none := List.getElem?_eq_none h

section
variable {s : State} (answering : s.answering = true) {handle : Half} {fields : Byte}
include answering

theorem exec_amendDemand_of_unnamed_fields (h : 4 ≤ fields.toNat) (level : Byte) (duration : Half) :
    exec (.amendDemand handle fields level duration) s = .next (s.refuse .badValue) := by
  change execAmendDemand handle fields level duration s = _
  rw [execAmendDemand, hostCommand_of_answering answering, if_pos h]

theorem exec_amendDemand_of_missing (h : fields.toNat < 4) (missing : s.demand.find handle = none) (level : Byte)
    (duration : Half) : exec (.amendDemand handle fields level duration) s = .next (s.refuse .noSuch) := by
  change execAmendDemand handle fields level duration s = _
  rw [execAmendDemand, hostCommand_of_answering answering, if_neg (by omega), missing]

theorem exec_amendDemand_of_found (h : fields.toNat < 4) {r : DemandRecord} (found : s.demand.find handle = some r)
    (level : Byte) (duration : Half) :
    exec (.amendDemand handle fields level duration) s =
      .next (if r.origin = .link then
          (s.amendRecord r fun x => x.amended fields level duration).respond (clampStatus (amendClamped fields level duration))
            (r.amended fields level duration).amendReport
        else s.refuse .notAllowed) := by
  change execAmendDemand handle fields level duration s = _
  rw [execAmendDemand, hostCommand_of_answering answering, if_neg (by omega), found]

theorem exec_retireDemand_of_missing (missing : s.demand.find handle = none) :
    exec (.retireDemand handle) s = .next (s.refuse .noSuch) := by
  change execRetireDemand handle s = _
  rw [execRetireDemand, hostCommand_of_answering answering, missing]

theorem exec_retireDemand_of_found {r : DemandRecord} (found : s.demand.find handle = some r) :
    exec (.retireDemand handle) s =
      .next (if r.origin.retirable then (s.retireRecord r).respond .ok [] else s.refuse .notAllowed) := by
  change execRetireDemand handle s = _
  rw [execRetireDemand, hostCommand_of_answering answering, found]

end

theorem Origin.retirable_iff (o : Origin) : o.retirable = true ↔ o ≠ .cooker ∧ o ≠ .humidity := by
  cases o <;> simp [Origin.retirable]

theorem DemandRecord.amended_held (r : DemandRecord) (fields level : Byte) (duration : Half) :
    (r.amended fields level duration).held = r.held := by
  unfold DemandRecord.amended
  dsimp only
  split <;> split <;> rfl

theorem clampStatus_amendClamped (fields level : Byte) (duration : Half) :
    clampStatus (amendClamped fields level duration) =
      if fields.getLsbD 0 ∧ 100 < level.toNat ∨ fields.getLsbD 1 ∧ 1440 < duration.toNat then .clamped else .ok := by
  simp only [clampStatus, amendClamped, Bool.or_eq_true, Bool.and_eq_true, decide_eq_true_eq]

/-- Settles O20: the handle names the record, which `State.amendRecord_spec` amends where it stands. -/
theorem amendDemandReplacesThePresentFields : Obligations.AmendDemandReplacesThePresentFields := by
  intro fields level duration s pre post r answering ok place link named minutes r1 r' amended
  have live : r ∈ s.demand.live := by simp [place]
  let f (x : DemandRecord) : DemandRecord := x.amended fields level duration
  have replaced : f r = r' := by
    simp only [f, DemandRecord.amended, DemandRecord.restart, start_requestedDuration]
    rfl
  obtain ⟨keeps, recomputes⟩ := State.amendRecord_spec ok.1 place f
  rw [replaced] at keeps recomputes
  have held : r'.held = r.held := replaced ▸ r.amended_held fields level duration
  refine ⟨s.amendRecord r f, ?_, fun same => keeps same held, fun differs => recomputes (.inl differs)⟩
  rw [exec_amendDemand_of_found answering named (DemandTable.find_handle ok live), if_pos link, clampStatus_amendClamped,
    show r.amended fields level duration = r' from replaced]
  rfl

/-- Settles O21: the handle names the record, which `State.retireRecord_spec` takes out. -/
theorem retireDemandFreesTheEntry : Obligations.RetireDemandFreesTheEntry := by
  intro s pre post r answering ok place cooker humidity
  have live : r ∈ s.demand.live := by simp [place]
  refine ⟨s.retireRecord r, ?_, State.retireRecord_spec ok.1 place⟩
  rw [exec_retireDemand_of_found answering (DemandTable.find_handle ok live),
    if_pos (r.origin.retirable_iff.2 ⟨cooker, humidity⟩)]

/-- R35: a filing with a new key at the quota is refused. -/
theorem State.fileLink_of_full {s : State} {k : Kind} {tag : Byte} (key : s.demand.byTag k tag = none)
    (full : 16 ≤ s.demand.linkCount) (level : Nat) (d : Duration) (status : Status) :
    s.fileLink k level d tag status = s.respond .tableFull (bytesOfHalf 0) := by
  rw [State.fileLink, key]
  exact if_neg (by omega)

/-- Settles O23: each refusal by the branch that makes it. -/
theorem refusedDemandCommandsChangeNothing : Obligations.RefusedDemandCommandsChangeNothing := by
  intro s answering
  refine ⟨fun kind level duration tag unnamed => ?_, fun kind level duration tag k named new full => ?_,
    fun handle fields level duration unnamed => exec_amendDemand_of_unnamed_fields answering unnamed level duration,
    fun handle fields level duration named missing => exec_amendDemand_of_missing answering named missing level duration,
    fun handle missing => exec_retireDemand_of_missing answering missing,
    fun handle fields level duration r named found other => ?_, fun handle r found other => ?_⟩
  · change execFileDemand kind level duration tag s = _
    rw [execFileDemand, hostCommand_of_answering answering, memberOf_eq_none (members := Kind.members) unnamed]
    rfl
  · rw [exec_fileDemand answering named, State.fileLink_of_full (DemandTable.byTag_none new) full]
    rfl
  · rw [exec_amendDemand_of_found answering named found, if_neg other]
    rfl
  · have kept : ¬r.origin.retirable = true := fun h => by
      obtain ⟨cooker, humidity⟩ := r.origin.retirable_iff.1 h
      exact other.elim cooker humidity
    rw [exec_retireDemand_of_found answering found, if_neg kept]
    rfl

/-- Settles O44: the sample changes its source, and the record follows by `State.alignHumidity_spec`. -/
theorem theHumidityRecordFollowsTheContributors : Obligations.TheHumidityRecordFollowsTheContributors :=
  fun i _ running ok => ⟨_, exec_humiditySample running i, State.alignHumidity_spec ok⟩

end Sys2Proof.Machine

/-! PROOFS. The ways in: what a silent part ignores, how a write is taken, what a read returns (R183 to R185, R200), and the settings
store with its resets (R193 to R197). -/

namespace Sys2Proof.Machine

variable {s : State}

/-! ### A silent part -/

/-- R183: a command changes nothing while the part does not acknowledge its address. -/
theorem runHost_of_silent (h : ¬s.answering = true) (c : Instr) : runHost c s = .next s := by
  cases c
  all_goals solve
    | exact congrArg Host.Outcome.next (if_neg h)
    | rfl

theorem execBadCommand_of_silent (h : s.answering = false) (bytes : List Byte) : execBadCommand bytes s = .next s := by
  unfold execBadCommand
  split
  · rfl
  · exact hostCommand_of_silent h _
  · exact hostCommand_of_silent h _
  · exact runHost_of_silent (ne_true_of_eq_false h) _

theorem answering_of_stopped (h : s.running = false) : s.answering = false := by simp [State.answering, h]

/-- R195: nothing happens in a part that has stopped, but for what ends a reset or changes the supply. -/
theorem exec_of_stopped (h : s.running = false) {c : Instr} (not_power : ∀ straps, c ≠ .powerReset straps)
    (not_pin : ∀ released, c ≠ .pinReset released) (not_loss : c ≠ .powerLoss) : exec c s = .next s := by
  cases c with
  | badCommand bytes => exact execBadCommand_of_silent (answering_of_stopped h) bytes
  | powerReset straps => exact absurd rfl (not_power straps)
  | pinReset released => exact absurd rfl (not_pin released)
  | powerLoss => exact absurd rfl not_loss
  | _ =>
    solve
    | exact congrArg Host.Outcome.next (if_neg (ne_true_of_eq_false h))
    | exact congrArg Host.Outcome.next (if_neg (ne_true_of_eq_false (answering_of_stopped h)))

/-- Settles O3: each row reaches the part by one of the two ways in. -/
theorem aSilentPartIsLeftAsItIs : Obligations.ASilentPartIsLeftAsItIs := by
  refine fun s => ⟨fun stopped c => exec_of_stopped stopped, fun silent => ⟨fun c bytes spelt => ?_, fun bytes => ?_⟩⟩
  · rw [exec_of_encoded (by rw [spelt]; rfl)]
    exact runHost_of_silent (ne_true_of_eq_false silent) c
  · exact execBadCommand_of_silent silent bytes

/-! ### Writes -/

/-- R200: the write of a command is decoded as that command. -/
theorem decodeWrite_of_encodeWrite {c : Instr} {bytes : List Byte} (h : encodeWrite c = some bytes) :
    decodeWrite bytes = .command c := by
  cases c
  all_goals
    cases h
  all_goals
    refine (show decodeWrite _ = .command _ from rfl).trans ?_
    simp only [halfOf_bytes, wordOf_bytes]

section
variable {code : Byte}

/-- R200: the codes without fields. -/
theorem encodes_none (h : fieldLength code = some 0) : ∃ c, encodeWrite c = some [code, 0] := by
  have named : code ∈ ([0x08, 0x09, 0x0B, 0x11, 0x12, 0x1C, 0x1D, 0x26, 0x28, 0x30, 0x31] : List Byte) := by
    revert code; decide
  simp only [List.mem_cons, List.not_mem_nil, or_false] at named
  rcases named with rfl | rfl | rfl | rfl | rfl | rfl | rfl | rfl | rfl | rfl | rfl
  exacts [⟨.readResolution, rfl⟩, ⟨.readSensors, rfl⟩, ⟨.readHumidity, rfl⟩, ⟨.readMeasure, rfl⟩, ⟨.cancelMeasure, rfl⟩,
    ⟨.readFrost, rfl⟩, ⟨.relearnExchanger, rfl⟩, ⟨.readFans, rfl⟩, ⟨.readNotices, rfl⟩, ⟨.reset, rfl⟩, ⟨.factoryClear, rfl⟩]

/-- R200: the codes with one field byte. -/
theorem encodes_one (h : fieldLength code = some 1) (a : Byte) : ∃ c, encodeWrite c = some [code, 1, a] := by
  have named : code ∈ ([0x05, 0x0A, 0x10, 0x13, 0x19, 0x1A, 0x21, 0x22, 0x25, 0x2A] : List Byte) := by
    revert code; decide
  simp only [List.mem_cons, List.not_mem_nil, or_false] at named
  rcases named with rfl | rfl | rfl | rfl | rfl | rfl | rfl | rfl | rfl | rfl
  exacts [⟨.listDemands a, rfl⟩, ⟨.readStation a, rfl⟩, ⟨.measure a, rfl⟩, ⟨.readTap a, rfl⟩, ⟨.retireFilter a, rfl⟩,
    ⟨.readFilter a, rfl⟩, ⟨.getParam a, rfl⟩, ⟨.setMode a, rfl⟩, ⟨.readCal a, rfl⟩, ⟨.clearFanFault a, rfl⟩]

/-- R200: the codes with two field bytes. -/
theorem encodes_two (h : fieldLength code = some 2) (a b : Byte) : ∃ c, encodeWrite c = some [code, 2, a, b] := by
  have named : code ∈ ([0x03, 0x04, 0x29] : List Byte) := by revert code; decide
  simp only [List.mem_cons, List.not_mem_nil, or_false] at named
  rcases named with rfl | rfl | rfl
  exacts [⟨.retireDemand (halfOf a b), by simp [encodeWrite]⟩, ⟨.readDemand (halfOf a b), by simp [encodeWrite]⟩,
    ⟨.clearNotices (halfOf a b), by simp [encodeWrite]⟩]

/-- R200: SET_SOURCE alone has four field bytes. -/
theorem encodes_four (h : fieldLength code = some 4) (a b x y : Byte) :
    ∃ c, encodeWrite c = some [code, 4, a, b, x, y] := by
  have named : code = 0x23 := by revert code; decide
  exact ⟨.setSource a b (halfOf x y), by simp [encodeWrite, named]⟩

/-- R200: the codes with five field bytes. -/
theorem encodes_five (h : fieldLength code = some 5) (a b x y z : Byte) :
    ∃ c, encodeWrite c = some [code, 5, a, b, x, y, z] := by
  have named : code ∈ ([0x01, 0x20] : List Byte) := by revert code; decide
  simp only [List.mem_cons, List.not_mem_nil, or_false] at named
  rcases named with rfl | rfl
  exacts [⟨.fileDemand a b (halfOf x y) z, by simp [encodeWrite]⟩, ⟨.setParam a (wordOf b x y z), by simp [encodeWrite]⟩]

/-- R200: the codes with six field bytes. -/
theorem encodes_six (h : fieldLength code = some 6) (a b x y z w : Byte) :
    ∃ c, encodeWrite c = some [code, 6, a, b, x, y, z, w] := by
  have named : code ∈ ([0x02, 0x18, 0x24] : List Byte) := by revert code; decide
  simp only [List.mem_cons, List.not_mem_nil, or_false] at named
  rcases named with rfl | rfl | rfl
  exacts [⟨.amendDemand (halfOf a b) x y (halfOf z w), by simp [encodeWrite]⟩,
    ⟨.fitFilter a b (halfOf x y) (halfOf z w), by simp [encodeWrite]⟩,
    ⟨.writeCal a b (halfOf x y) (halfOf z w), by simp [encodeWrite]⟩]

theorem fieldLength_mem {n : Nat} (h : fieldLength code = some n) : n ∈ [0, 1, 2, 4, 5, 6] := by
  have every : ∀ c : Byte, (fieldLength c).all (· ∈ [0, 1, 2, 4, 5, 6]) = true := by decide
  have := every code
  rw [h] at this
  exact of_decide_eq_true this

/-- R200: every code with the number of field bytes that it asks for is the write of a command. -/
theorem exists_encodeWrite {fields : List Byte} (h : fieldLength code = some fields.length) :
    ∃ c, encodeWrite c = some (code :: BitVec.ofNat 8 fields.length :: fields) := by
  match fields, h with
  | [], h => exact encodes_none h
  | [a], h => exact encodes_one h a
  | [a, b], h => exact encodes_two h a b
  | [_, _, _], h => exact absurd (fieldLength_mem h) (by simp)
  | [a, b, x, y], h => exact encodes_four h a b x y
  | [a, b, x, y, z], h => exact encodes_five h a b x y z
  | [a, b, x, y, z, w], h => exact encodes_six h a b x y z w
  | _ :: _ :: _ :: _ :: _ :: _ :: _ :: _, h => exact absurd (fieldLength_mem h) (by simp)

end

theorem decodeWrite_eq_command {bytes : List Byte} {c : Instr} (h : decodeWrite bytes = .command c) :
    ∃ code fields, bytes = code :: BitVec.ofNat 8 fields.length :: fields ∧ fieldLength code = some fields.length := by
  unfold decodeWrite at h
  split at h
  · cases h
  · cases h
  · next code n fields =>
    split at h
    · cases h
    · next fits =>
      have count : fields.length = n.toNat := of_not_not (not_or.1 fits).2
      split at h
      · cases h
      · next len asks =>
        split at h
        · cases h
        · next same =>
          refine ⟨code, fields, ?_, ?_⟩
          · rw [count, BitVec.ofNat_toNat, BitVec.setWidth_eq]
          · rw [asks, count, of_not_not same]

/-- Settles O4: a code with the number of field bytes that it asks for is the write of some command, which is decoded as that
command. -/
theorem writesDecodeAsEncoded : Obligations.WritesDecodeAsEncoded := by
  refine fun c bytes => ⟨fun h => ?_, decodeWrite_of_encodeWrite⟩
  obtain ⟨code, fields, rfl, len⟩ := decodeWrite_eq_command h
  obtain ⟨d, spelt⟩ := exists_encodeWrite len
  have same : d = c := WriteVerdict.command.inj ((decodeWrite_of_encodeWrite spelt).symm.trans h)
  exact same ▸ spelt

/-! ### What a write does -/

section
variable (answering : s.answering = true)
include answering

theorem exec_badCommand_of_badLength {bytes : List Byte} (h : decodeWrite bytes = .badLength) :
    exec (.badCommand bytes) s = .next (s.respond .badLength []) := by
  change execBadCommand bytes s = _
  simp only [execBadCommand, h, hostCommand_of_answering answering]
  rfl

theorem exec_badCommand_of_badCommand {bytes : List Byte} (h : decodeWrite bytes = .badCommand) :
    exec (.badCommand bytes) s = .next (s.respond .badCommand []) := by
  change execBadCommand bytes s = _
  simp only [execBadCommand, h, hostCommand_of_answering answering]
  rfl

end

/-- R184 step 5: the bytes of a command's write execute it. -/
theorem exec_badCommand_of_encoded {c : Instr} {bytes : List Byte} (spelt : encodeWrite c = some bytes) (s : State) :
    exec (.badCommand bytes) s = exec c s := by
  change execBadCommand bytes s = _
  simp only [execBadCommand, decodeWrite_of_encodeWrite spelt]
  exact (exec_of_encoded (by rw [spelt]; rfl)).symm

section
variable {code n : Byte} {fields : List Byte}

theorem decodeWrite_of_bad_count (h : 32 < n.toNat ∨ fields.length ≠ n.toNat) :
    decodeWrite (code :: n :: fields) = .badLength := if_pos h

theorem decodeWrite_of_unnamed (short : n.toNat ≤ 32) (count : fields.length = n.toNat) (unnamed : fieldLength code = none) :
    decodeWrite (code :: n :: fields) = .badCommand := by
  simp only [decodeWrite, unnamed]
  exact if_neg (by omega)

theorem decodeWrite_of_other_length {len : Nat}
    (named : fieldLength code = some len) (other : n.toNat ≠ len) : decodeWrite (code :: n :: fields) = .badLength := by
  simp only [decodeWrite, named, if_pos other, ite_self]

end

/-- Settles O5: the checks of a write in their order, then its command. -/
theorem writesAreExecutedOrRefused : Obligations.WritesAreExecutedOrRefused :=
  ⟨fun _ _ spelt s => exec_badCommand_of_encoded spelt s, fun _ answering =>
    ⟨rfl, fun _ => exec_badCommand_of_badLength answering rfl,
      fun _ _ _ h => exec_badCommand_of_badLength answering (decodeWrite_of_bad_count h),
      fun _ _ _ short count unnamed =>
        exec_badCommand_of_badCommand answering (decodeWrite_of_unnamed short count unnamed),
      fun _ _ _ _ _ _ named other =>
        exec_badCommand_of_badLength answering (decodeWrite_of_other_length named other)⟩⟩

/-! ### Reads -/

/-- R183 and section 11.1: the 7-bit address. -/
theorem State.address_toNat (s : State) : s.address.toNat = 0x4C + s.link.straps.toNat := by
  have := s.link.straps.isLt
  simp [State.address]
  omega

theorem State.acknowledges_iff (s : State) (address : BitVec 7) :
    s.acknowledges address = true ↔ s.answering = true ∧ address = s.address := by
  simp [State.acknowledges]

theorem State.answering_iff (s : State) :
    s.answering = true ↔ s.life = .running ∧ s.link.loading = false ∧ s.store.clearing = none := by
  simp [State.answering, State.running, and_assoc]

theorem Response.bytes_getElem (r : Response) {n i : Nat} (h : i < n) :
    (r.bytes n)[i]? = some ((r.status.code :: BitVec.ofNat 8 r.data.length :: r.data).getD i 0) := by
  unfold Response.bytes
  dsimp only
  generalize (r.status.code :: BitVec.ofNat 8 r.data.length :: r.data) = held
  rw [List.getElem?_take_of_lt h, List.getD_eq_getElem?_getD]
  rcases Nat.lt_or_ge i held.length with inside | beyond
  · rw [List.getElem?_append_left inside, List.getElem?_eq_getElem inside]; rfl
  · rw [List.getElem?_append_right beyond, List.getElem?_eq_none beyond, List.getElem?_replicate_of_lt (by omega)]
    rfl

theorem Response.bytes_length (r : Response) (n : Nat) : (r.bytes n).length = n := by
  simp only [Response.bytes, List.length_take, List.length_append, List.length_replicate]
  omega

/-- Settles O6: the address of R183, and the buffer of R185 byte by byte. -/
theorem readsReturnTheBuffer : Obligations.ReadsReturnTheBuffer := by
  intro s address n
  have spelt : address = s.address ↔ address.toNat = 0x4C + s.link.straps.toNat := by
    rw [← s.address_toNat, BitVec.toNat_inj]
  refine ⟨?_, ?_, fun other => ?_, fun named _ => ?_⟩
  · rw [State.acknowledges_iff, State.answering_iff, spelt]
    simp only [and_assoc]
  · rw [State.acknowledges_iff]
    exact ⟨fun h => ⟨h, rfl⟩, And.left⟩
  · exact if_neg (ne_true_of_eq_false other)
  · refine ⟨s.link.response.bytes n, if_pos named, Response.bytes_length _ _, fun i inside => ?_⟩
    rw [Response.bytes_getElem _ inside]
    refine ⟨fun h => by rw [h]; rfl, fun h => by rw [h]; rfl, fun h => ?_⟩
    obtain ⟨k, rfl⟩ := Nat.exists_eq_add_of_le' h
    rfl

end Sys2Proof.Machine

/-! PROOFS. The settings store, FACTORY_CLEAR and the resets (R193 to R197). -/

namespace Sys2Proof.Machine

variable {s : State}

theorem life_of_running (h : s.running = true) : s.life = .running := by simpa [State.running] using h

/-! ### Writes -/

section
variable (running : s.running = true)
include running

theorem exec_storeWriteStart : exec .storeWriteStart s = .next { s with store := s.nextWrite } := by
  change execStoreWriteStart s = _
  rw [execStoreWriteStart, partEvent_of_running running]

theorem exec_storeWriteComplete : exec .storeWriteComplete s = .next { s with store := s.store.finish } := by
  change execStoreWriteComplete s = _
  rw [execStoreWriteComplete, partEvent_of_running running]

end

/-- R194: a write in progress goes on. -/
theorem State.nextWrite_of_writing {x : Image} (writing : s.store.writing = some x) : s.nextWrite = s.store := by
  unfold State.nextWrite; rw [writing]

/-- R194: the head of the queue is written next. -/
theorem State.nextWrite_of_queue {b : Block} {rest : List Block} (writing : s.store.writing = none)
    (clearing : s.store.clearing = none) (queue : s.store.queue = b :: rest) :
    s.nextWrite = { s.store with writing := some (s.image b), writeElapsed := 0, queue := rest } := by
  unfold State.nextWrite; rw [writing, clearing, queue]

/-- R197: the first block that a clearing has left is written next. -/
theorem State.nextWrite_of_clearing {b : Block} {rest : List Block} (writing : s.store.writing = none)
    (clearing : s.store.clearing = some (b :: rest)) :
    s.nextWrite = { s.store with writing := some b.defaultImage, writeElapsed := 0, clearing := some rest } := by
  unfold State.nextWrite; rw [writing, clearing]

/-- R194: without a block to write no write starts. -/
theorem State.nextWrite_of_empty (clearing : s.store.clearing = none) (queue : s.store.queue = []) :
    s.nextWrite = s.store := by
  unfold State.nextWrite
  rw [clearing, queue]
  split <;> simp_all

theorem Store.finish_of_writing {t : Store} {x : Image} (writing : t.writing = some x) :
    t.finish = { t.put x with writing := none, writeElapsed := 0 } := by
  unfold Store.finish; rw [writing]

theorem Store.finish_of_idle {t : Store} (idle : t.writing = none) : t.finish = t := by
  unfold Store.finish; rw [idle]

/-- R197: the loss of the supply leaves the block of a clearing's write failing its check. -/
theorem State.cutWrite_of_clearing {x : Image} {rest : List Block} (writing : s.store.writing = some x)
    (clearing : s.store.clearing = some rest) (left : rest.length < 6) :
    (s.cutWrite true).store = { s.store.spoil x with writing := none, writeElapsed := 0 } := by
  have clears : s.store.clearingWrite = true := by
    simp only [Store.clearingWrite, clearing, Option.any_some]
    exact decide_eq_true left
  simp only [State.cutWrite, Store.cut, writing, clears, Option.isSome_some, Bool.and_self, if_true]

/-- Settles O13: each of the store's events by the branch that the memory and the queue take. -/
theorem theStoreLoadsAndWritesItsBlocks : Obligations.TheStoreLoadsAndWritesItsBlocks := by
  intro s
  refine ⟨⟨fun c held => ?_, fun low off => ?_⟩, fun b => by cases b <;> rfl, fun m x => by cases x <;> rfl,
    fun m x => by cases x <;> rfl, fun running => ⟨?_, ?_, fun x writing => ?_, fun idle => ?_, fun serves =>
      ⟨fun b => ?_, fun b rest idle queue => ?_, fun nothing => ?_⟩⟩⟩
  · change Host.Outcome.next s.supplyLoss = _
    rw [State.supplyLoss, held]
  · change Host.Outcome.next s.supplyLoss = _
    rw [State.supplyLoss, off]
  · change execLoadingEnd s = _
    rw [execLoadingEnd, partEvent_of_running running]
  · refine ⟨_, s.cutWrite_mem true, (s.cutWrite true).freeCount, ?_, fun x rest writing clearing left =>
      State.cutWrite_of_clearing writing clearing left⟩
    change Host.Outcome.next s.supplyLoss = _
    rw [State.supplyLoss, life_of_running running]
    dsimp only
    rw [s.cutWrite_eq true]
  · rw [exec_storeWriteComplete running, Store.finish_of_writing writing]
  · rw [exec_storeWriteComplete running, Store.finish_of_idle idle]
  · have serving : s.store.clearing.isSome = false := Option.isSome_eq_false_iff.2 (Option.isNone_iff_eq_none.2 serves)
    simp only [Store.change, serving, Bool.false_or, List.contains_iff_mem]
    split <;> rfl
  · rw [exec_storeWriteStart running, State.nextWrite_of_queue idle serves queue]
  · rw [exec_storeWriteStart running]
    rcases nothing with writes | empty
    · obtain ⟨x, writing⟩ := Option.isSome_iff_exists.1 writes
      rw [State.nextWrite_of_writing writing]
    · rw [State.nextWrite_of_empty serves empty]

/-! ### Resets -/

/-- R195: what ends a reset restarts the part from what the write in progress left. -/
theorem ends_of_restart {c : Instr} {cause : ResetCause} {straps : BitVec 2}
    (e : exec c s = .next (s.restart cause straps)) :
    ∃ m ∈ s.store.afterCut, ∃ t, exec c s = .next t ∧ s.ResetTo m cause straps t := by
  obtain ⟨m, mem, resets⟩ := s.restart_resetTo cause straps
  exact ⟨m, mem, _, e, resets⟩

/-- Settles O14: each cause restarts the part, by `State.restart_resetTo`, or holds it in reset. -/
theorem resetsRestartEveryBlock : Obligations.ResetsRestartEveryBlock := by
  intro s ends
  have rise (straps : BitVec 2) : exec (.powerReset straps) s = .next (s.supplyRise straps) := rfl
  have high (straps : BitVec 2) : exec (.pinReset (some straps)) s = .next (s.resetHigh straps) := rfl
  have low : exec (.pinReset none) s = .next s.resetLow := rfl
  refine ⟨fun straps => ⟨fun life => ends_of_restart ?_, fun life => ?_, fun life => ends_of_restart ?_,
    fun c life => ends_of_restart ?_, fun held life => ?_⟩, fun life => ?_, fun c life => ?_, fun held life => ?_,
    fun answering => ?_⟩
  · rw [rise, State.supplyRise]
    rcases life with h | h <;> rw [h]
  · rw [rise, State.supplyRise]
    rcases life with ⟨c, h⟩ | h <;> rw [h]
  · rw [high, State.resetHigh, life]
  · rw [high, State.resetHigh, life]
  · rw [high, State.resetHigh, life]
  · refine ⟨_, s.cutWrite_mem false, (s.cutWrite false).freeCount, ?_⟩
    rw [low, State.resetLow, life]
    dsimp only
    rw [s.cutWrite_eq false]
  · rw [low, State.resetLow, life]
  · rw [low, State.resetLow, life]
  · obtain ⟨m, mem, straps, resets⟩ := s.commandReset_resetTo
    refine ⟨straps, m, mem, s.commandReset, ?_, resets⟩
    change execReset s = _
    rw [execReset, hostCommand_of_answering answering]

/-! ### FACTORY_CLEAR -/

theorem exec_factoryClear (answering : s.answering = true) :
    exec .factoryClear s =
      .next (if s.resolver.mode = .standby then { s with store := s.store.beginClear } else s.refuse .wrongMode) := by
  change execFactoryClear s = _
  rw [execFactoryClear, hostCommand_of_answering answering]

/-- R197: the reset that ends a clearing finds no write in progress. -/
theorem State.commandReset_of_cleared (s : State) :
    State.commandReset { s with store := s.store.cleared } =
      State.reload { s with store := s.store.cleared, freeCount := s.freeCount + 1 } .command
        (Config.strapLevels s.freeCount) := rfl

theorem exec_factoryClearDone (running : s.running = true) (clears : s.store.clearing.isSome = true) :
    exec .factoryClearDone s = .next (State.commandReset { s with store := s.store.cleared }) := by
  change execFactoryClearDone s = _
  rw [execFactoryClearDone, partEvent_of_running running, if_pos clears]

/-- R193: after a clearing no block is blank or fails its check. -/
theorem Notices.afterReset_cleared (m : Store) (cause : ResetCause) :
    Notices.afterReset cause m.cleared.failed = ⟨Notice.reset.flag, cause, 0⟩ := by
  rw [show m.cleared.failed = 0 from rfl]
  rfl

/-- Settles O15: the clearing's start, its writes by `State.nextWrite`, and the reset that ends it. -/
theorem factoryClearWritesEveryDefault : Obligations.FactoryClearWritesEveryDefault := by
  refine fun s => ⟨fun answering other => ?_, fun answering standby => ?_, fun running x rest clearing writing => ⟨?_, ?_⟩,
    fun running b rest clearing idle => ?_, fun b => by cases b <;> rfl, fun running clears => ?_⟩
  · rw [exec_factoryClear answering, if_neg other]
    rfl
  · rw [exec_factoryClear answering, if_pos standby]
    exact ⟨_, rfl, by simp [State.answering, Store.beginClear], rfl⟩
  · rw [exec_storeWriteStart running, State.nextWrite_of_writing writing]
  · rw [exec_storeWriteComplete running, Store.finish_of_writing writing]
  · rw [exec_storeWriteStart running, State.nextWrite_of_clearing idle clearing]
  · refine ⟨Config.strapLevels s.freeCount, _, exec_factoryClearDone running clears, ?_⟩
    rw [State.commandReset_of_cleared]
    exact ⟨(State.reload_resetTo _ .command _).of_eq rfl, rfl, Notices.afterReset_cleared s.store .command, rfl, rfl, rfl, rfl, rfl, rfl⟩

end Sys2Proof.Machine

/-! PROOFS. The frames of the station bus (R203) and SET_PARAM (R187, R188, R58). -/

namespace Sys2Proof.Machine

variable {s t : State}

/-! ### Frames -/

/-- R52 and R203: the kind byte. -/
theorem reportKind_eq_some {b : Byte} {k : StationKind} :
    reportKind b = some k ↔ b = 0 ∧ k = .room ∨ b = 1 ∧ k = .wet := by
  unfold reportKind
  split
  · next room =>
    subst room
    constructor
    · intro h
      exact .inl ⟨rfl, (Option.some.inj h).symm⟩
    · rintro (⟨-, rfl⟩ | ⟨h, -⟩)
      · rfl
      · exact absurd h (by decide)
  · next not_room =>
    split
    · next wet =>
      constructor
      · intro h
        exact .inr ⟨wet, (Option.some.inj h).symm⟩
      · rintro (⟨h, -⟩ | ⟨-, rfl⟩)
        · exact absurd h not_room
        · rfl
    · next not_wet =>
      constructor
      · intro h
        cases h
      · rintro (⟨h, -⟩ | ⟨h, -⟩)
        · exact absurd h not_room
        · exact absurd h not_wet

/-- R203: the CRC of the manual's worked POLL. -/
theorem crc_worked : crc [0x01, 0x01, 0x02, 0x00, 0x32] = 0xF0 := by decide +kernel

/-- Settles O7: a frame is good exactly when its thirteen bytes are those of a REPORT. -/
theorem reportFramesDecode : Obligations.ReportFramesDecode := by
  refine ⟨fun address chars r => ⟨fun h => ?_, ?_⟩, crc_worked, ?_⟩
  · unfold decodeReport at h
    split at h
    · next start addr type len k f t0 t1 h0 h1 short long c =>
      split at h
      · next good =>
        obtain ⟨rfl, rfl, rfl, rfl, rfl⟩ := good
        obtain ⟨kind, named, rfl⟩ := Option.map_eq_some_iff.1 h
        exact ⟨k, f, t0, t1, h0, h1, rfl, reportKind_eq_some.1 named, rfl, rfl, rfl⟩
      · cases h
    · cases h
  · rintro ⟨k, f, t0, t1, h0, h1, rfl, kind, fault, temperature, humidity⟩
    obtain ⟨kind', fault', temperature', humidity', short, long⟩ := r
    dsimp only at kind fault temperature humidity
    subst fault temperature humidity
    simp only [decodeReport, List.cons_append, List.nil_append, reportKind_eq_some.2 kind]
    rfl
  · simp only [pollFrame, crc_worked]; rfl

/-! ### What stands beside a recompute -/

/-- A recompute reads neither the store nor the notices. -/
theorem State.RecomputedTo.beside (h : s.RecomputedTo t) (m : Store) (n : Notices) :
    State.RecomputedTo { s with store := m, notices := n } { t with store := m, notices := n } := by
  obtain ⟨rest, drive, channel, requests, fans, settled⟩ := h
  refine ⟨?_, drive, channel, requests, fans, settled⟩
  conv => lhs; rw [rest]
  rfl

/-- A changed block beside a recompute. -/
theorem State.RecomputedTo.changed (h : s.RecomputedTo t) (b : Block) :
    State.RecomputedTo { s with store := s.store.change b } (t.changed b) := by
  have store : t.store = s.store := by rw [h.1]
  have notices : t.notices = s.notices := by rw [h.1]
  have beside := h.beside (s.store.change b) s.notices
  rw [← store, ← notices] at beside
  rw [← store]
  have same : { s with store := t.store.change b, notices := t.notices } =
      { s with store := t.store.change b } := by rw [notices]
  rwa [same] at beside

/-! ### SET_PARAM -/

section
variable (answering : s.answering = true) {ident : Byte}
include answering

theorem exec_setParam_of_refused (unnamed : Param.ofIdent ident = none) (value : Word) :
    exec (.setParam ident value) s = .next (s.respond .badValue []) := by
  change execSetParam ident value s = _
  simp only [execSetParam, hostCommand_of_answering answering, unnamed]
  rfl

theorem exec_setParam_of_named {x : Param} (named : Param.ofIdent ident = some x) (value : Word) :
    exec (.setParam ident value) s =
      .next ((s.setParam x (s.params.accepted x value)).respond
        (clampStatus (s.params.accepted x value != x.carried value))
        ((s.setParam x (s.params.accepted x value)).paramReport ident x)) := by
  change execSetParam ident value s = _
  simp only [execSetParam, hostCommand_of_answering answering, named]

end

/-- R59: a reading that is ended, or stands, is noticed exactly where it is ended. -/
theorem readingNotice_of_ended {a b : Reading} (ended : b = a ∨ b.status = .invalid) :
    readingNotice a b = true ↔ a.status ≠ .invalid ∧ b.status = .invalid := by
  unfold readingNotice
  rcases ended with rfl | h
  · simp
    intro h; simp [h]
  · simp [h]

theorem Station.enable_readings (x : Station) (on : Bool) :
    ((x.enable on).temperature = x.temperature ∨ (x.enable on).temperature.status = .invalid)
      ∧ ((x.enable on).humidity = x.humidity ∨ (x.enable on).humidity.status = .invalid) := by
  unfold Station.enable
  split <;> split
  · exact ⟨.inr rfl, .inr rfl⟩
  · exact ⟨.inl rfl, .inl rfl⟩
  · exact ⟨.inl rfl, .inl rfl⟩
  · exact ⟨.inr rfl, .inr rfl⟩

theorem Bus.losesReading_iff (b : Bus) (enabled : BitVec 6) :
    b.losesReading enabled = true ↔ ∃ n : StationId,
      (b.stations[n].temperature.status ≠ .invalid
        ∧ (b.stations[n].enable (enabled.getLsbD n)).temperature.status = .invalid)
      ∨ b.stations[n].humidity.status ≠ .invalid
        ∧ (b.stations[n].enable (enabled.getLsbD n)).humidity.status = .invalid := by
  simp only [Bus.losesReading, List.any_eq_true, List.mem_finRange, true_and, Bool.or_eq_true]
  refine exists_congr fun n => ?_
  have readings := b.stations[n].enable_readings (enabled.getLsbD n)
  rw [readingNotice_of_ended readings.1, readingNotice_of_ended readings.2]

/-- R188: a parameter that no block reads at once changes the block alone. -/
theorem State.paramReaches_of_unread {x : Param} (unread : x.resolverReads = false) (steady : x ≠ .steadyTime)
    (stations : x ≠ .stationsEnabled) : s.paramReaches x = s := by
  rw [State.paramReaches, if_neg (ne_true_of_eq_false unread), if_neg steady, if_neg stations]

/-- R188: what a parameter reaches leaves the parameters. -/
theorem State.paramReaches_params (s : State) (x : Param) : (s.paramReaches x).params = s.params := by
  unfold State.paramReaches
  split_ifs
  · rw [(State.inputChanged_recomputedTo s).1]
  · obtain ⟨q, settled, -⟩ := State.channelTail_spec s.refreshSteady
    rw [settled]
    rfl
  · rw [State.enableStations, State.notifyIf_eq]
  · rfl

/-- R187: SET_PARAM answers with the accepted value. -/
theorem State.setParam_get (s : State) (x : Param) (v : Int) : (s.setParam x v).params.get x = v := by
  unfold State.setParam
  split
  · assumption
  · rw [State.changed_params, State.paramReaches_params, Params.get_set, if_pos rfl]

/-- R58: what a new set of stations makes of the stations, the exchange and the notices. -/
theorem State.enableStations_eq (s : State) (enabled : BitVec 6) :
    s.enableStations enabled =
      { s with
        bus :=
          { stations := Vector.ofFn fun n => s.bus.stations[n].enable (enabled.getLsbD n)
            exchange := s.bus.exchange.enable enabled }
        notices := if s.bus.losesReading enabled then s.notices.set .sensor else s.notices } := by
  rw [State.enableStations, State.notifyIf_eq]

/-- R58: a station that is not served, where its bit is set and where it is clear. -/
theorem Station.enable_of_unserved {x : Station} (unserved : x.state = .unconfigured) (on : Bool) :
    x.enable on = if on then { Station.fresh .seeking with marked := true } else x := by
  simp only [Station.enable, unserved, if_true]

/-- R58: a station that is served, where its bit is set and where it is clear. -/
theorem Station.enable_of_served {x : Station} (served : x.state ≠ .unconfigured) (on : Bool) :
    x.enable on = if on then x else .fresh .unconfigured := by
  simp only [Station.enable, served, if_false]

/-- Settles O9: an accepted value that differs reaches the readers of its parameter, by `State.paramReaches`. -/
theorem setParameter : Obligations.SetParameter := by
  intro ident value s answering
  refine ⟨fun unnamed => exec_setParam_of_refused answering unnamed value, ?_⟩
  intro x named v changed
  let w : State := { s with params := s.params.set x v }
  have differs (h : s.params.get x ≠ v) : s.setParam x v = (w.paramReaches x).changed .parameters := if_neg h
  refine ⟨s.setParam x v, ?_, fun same => if_pos same, fun h => ?_⟩
  · rw [exec_setParam_of_named answering named, State.paramReport, State.setParam_get]
    have status : clampStatus (v != x.carried value) = if v = x.carried value then .ok else .clamped := by
      simp only [clampStatus, bne_iff_ne, ne_eq, ite_not]
    rw [status]
  · rw [differs h]
    refine ⟨fun reads => ?_, fun steady => ?_, fun stations => ?_, fun unread steady stations => ?_⟩
    · have reached : w.paramReaches x = w.inputChanged := if_pos reads
      rw [reached]
      exact (State.inputChanged_recomputedTo w).changed .parameters
    · have reached : w.paramReaches x = w.refreshSteady.channelTail := by subst steady; rfl
      obtain ⟨q, tail, settled⟩ := State.channelTail_spec w.refreshSteady
      rw [reached, tail]
      exact ⟨rfl, settled⟩
    · have reached : w.paramReaches x = w.enableStations w.params.stations := by subst stations; rfl
      rw [reached, State.enableStations_eq]
      intro on ends
      have enabled (n : StationId) : (Vector.ofFn fun n : StationId =>
          w.bus.stations[n].enable (w.params.stations.getLsbD n))[n] =
            s.bus.stations[n].enable (w.params.stations.getLsbD n) := Vector.getElem_ofFn _
      refine ⟨rfl, fun n => ⟨fun unserved => ⟨fun h => ?_, fun h => ?_⟩, fun served => ⟨fun h => ?_, fun h => ?_⟩⟩,
        ?_, ?_, ?_, fun some_ends => if_pos ((Bus.losesReading_iff ..).2 ?_), fun none_ends => if_neg fun loses => ?_⟩
      · exact (enabled n).trans ((Station.enable_of_unserved unserved _).trans (if_pos h))
      · exact (enabled n).trans ((Station.enable_of_unserved unserved _).trans (if_neg h))
      · exact (enabled n).trans ((Station.enable_of_served served _).trans (if_pos h))
      · exact (enabled n).trans ((Station.enable_of_served served _).trans (if_neg h))
      · intro n frame e sending
        change s.bus.exchange.enable _ = _
        rw [sending]
        rfl
      · intro n e b window
        change s.bus.exchange.enable _ = _
        rw [window]
        rfl
      · rintro (idle | ⟨frame, e, void⟩)
        · change s.bus.exchange.enable _ = s.bus.exchange
          rw [idle]
          rfl
        · change s.bus.exchange.enable _ = s.bus.exchange
          rw [void]
          rfl
      · obtain ⟨n, ended⟩ := some_ends
        refine ⟨n, ?_⟩
        rw [← enabled n]
        exact ended
      · obtain ⟨n, ended⟩ := (Bus.losesReading_iff ..).1 loses
        have stays := none_ends n
        rw [← enabled n] at ended
        exact ended.elim stays.1 stays.2
    · rw [State.paramReaches_of_unread unread steady stations]; rfl

end Sys2Proof.Machine

/-! PROOFS. The events and commands of the fan drive: steadiness and the preheater (R116, R123), stalls (R118 to R120),
ramps (R109 to R115), the source map (R122) and calibration (R107). -/

namespace Sys2Proof.Machine

variable {s t : State} {f : FanId}

/-! ### Steadiness and the preheater -/

theorem FanState.available_iff (x : FanState) : x.available = true ↔ ¬(x = .faultRest ∨ x = .locked) := by
  cases x <;> decide

/-- R116: the fans hold their requests and are available. -/
theorem Drive.matched_iff (d : Drive) :
    d.matched = true ↔ d.sup.commanded = d.sup.requested ∧ d.ext.commanded = d.ext.requested
      ∧ ¬((d.fan .sup).state = .faultRest ∨ (d.fan .sup).state = .locked)
      ∧ ¬((d.fan .ext).state = .faultRest ∨ (d.fan .ext).state = .locked) := by
  simp only [Drive.matched, Bool.and_eq_true, beq_iff_eq, FanState.available_iff, and_assoc, Drive.fan]

section
variable (running : s.running = true)
include running

/-- R116: matched fans become steady where the steadiness timer has reached its end. -/
theorem exec_steadinessReached_of_matched (matched : s.drive.matched = true) :
    exec .steadinessReached s =
      .next (State.channelTail
        { s with drive :=
          { s.drive with elapsed := max s.drive.elapsed (s.params.nat .steadyTime * 1000), steady := true } }) := by
  change execSteadinessReached s = _
  rw [execSteadinessReached, partEvent_of_running running, if_pos matched]
  let u : State :=
    { s with drive := { s.drive with elapsed := max s.drive.elapsed (s.params.nat .steadyTime * 1000) } }
  have steady : u.steadyNow = true := by
    rw [State.steadyNow, Bool.and_eq_true, decide_eq_true_iff]
    exact ⟨matched, le_max_right _ _⟩
  have refreshed : u.refreshSteady = { u with drive := { u.drive with steady := true } } := by
    rw [State.refreshSteady, steady, Bool.true_or, Bool.and_true]
  exact congrArg (fun v : State => Host.Outcome.next v.channelTail) refreshed

theorem exec_steadinessReached_of_unmatched (unmatched : ¬s.drive.matched = true) :
    exec .steadinessReached s = .next s := by
  change execSteadinessReached s = _
  rw [execSteadinessReached, partEvent_of_running running, if_neg unmatched]

end

/-- Settles O35: steadiness from the conditions in `Drive.matched`, the preheater's pin by its two rows. -/
theorem steadinessAndPreheaterEvents : Obligations.SteadinessAndPreheaterEvents := by
  intro s d out holds
  have matched : s.drive.matched = true ↔ holds := s.drive.matched_iff
  refine ⟨?_, fun runs on => ?_, fun still => ?_, ?_, fun running => ⟨fun h => ?_, fun h => ?_, ?_, ?_⟩⟩
  · rw [State.steadyNow, Bool.and_eq_true, decide_eq_true_iff, matched]
  · exact if_neg fun stopped => stopped.elim on.ne' (fun h => h runs)
  · exact if_pos still.symm
  · rw [State.prePin, Bool.and_eq_true]
  · obtain ⟨q, tail, settled⟩ := State.channelTail_spec
      { s with drive := { d with elapsed := max d.elapsed (s.params.nat .steadyTime * 1000), steady := true } }
    refine ⟨_, exec_steadinessReached_of_matched running (matched.2 h), ?_⟩
    rw [tail]
    exact ⟨settled, rfl⟩
  · exact exec_steadinessReached_of_unmatched running (mt matched.1 h)
  · change execPreheatPeriodStart s = _
    rw [execPreheatPeriodStart, partEvent_of_running running]
    rfl
  · change execPreheatOnTimeEnd s = _
    rw [execPreheatOnTimeEnd, partEvent_of_running running]
    rfl

/-! ### Stalls -/

theorem exec_tachWindowClose (running : s.running = true) (samples : List Bool) :
    exec (.tachWindowClose f samples) s =
      .next (State.judgeStall
        { s with sensing := s.sensing.setTach f ((s.sensing.tach f).close samples) } f) := by
  change execTachWindowClose f samples s = _
  rw [execTachWindowClose, partEvent_of_running running]

/-- R118: the fan runs at its first duty or above and has turned too slowly. -/
theorem State.stalledIn_iff (s : State) (f : FanId) :
    s.stalledIn f = true ↔ (s.drive.fan f).state = .running ∧ s.firstDuty f ≤ (s.drive.fan f).commanded
      ∧ (s.sensing.tach f).speed < 150 := by
  simp only [State.stalledIn, Bool.and_eq_true, decide_eq_true_iff, and_assoc]

theorem State.countStall_of_lt {n : Nat} (few : n < 15) :
    s.countStall f n = { s with drive := s.drive.setFan f { s.drive.fan f with stall := n } } := by
  rw [State.countStall, if_pos few]
  exact State.moveFan_of_same_duty rfl

theorem State.countStall_of_ge {n : Nat} (many : 15 ≤ n) :
    s.countStall f n = State.inputChanged
      { s with drive := s.drive.moveFan f (s.drive.fan f).stalled, notices := s.notices.set .fan } :=
  if_neg (by omega)

theorem Sensing.tach_setTach (x : Sensing) (f : FanId) (v : TachInput) : (x.setTach f v).tach f = v := by
  cases f <;> rfl

/-- Settles O32: the window's judgement gives the count, and the count of fifteen the stall. -/
theorem tachWindowsJudgeTheFan : Obligations.TachWindowsJudgeTheFan := by
  intro f samples s running i x closed judged stalled run
  have runs : run = .next (closed.judgeStall f) := exec_tachWindowClose running samples
  have found : closed.stalledIn f = true ↔ judged := by
    rw [State.stalledIn_iff, show closed.sensing.tach f = i from Sensing.tach_setTach ..]
    rfl
  have counts (h : judged) : closed.judgeStall f = closed.countStall f (x.stall + 1) :=
    congrArg (closed.countStall f) (if_pos (found.2 h))
  refine ⟨fun h => ?_, fun h few => ?_, fun h many again => ?_, fun h many last => ?_⟩
  · rw [runs, State.judgeStall, if_neg (mt found.1 h), State.countStall_of_lt (by omega)]
  · rw [runs, counts h, State.countStall_of_lt few]
  · refine ⟨_, runs, ?_⟩
    rw [counts h, State.countStall_of_ge many, show (closed.drive.fan f).stalled = stalled .faultRest 60 from if_pos again]
    exact State.inputChanged_recomputedTo _
  · refine ⟨_, runs, ?_⟩
    rw [counts h, State.countStall_of_ge many,
      show (closed.drive.fan f).stalled = stalled .locked x.rest from if_neg (Nat.not_lt.2 last)]
    exact State.inputChanged_recomputedTo _

/-! ### The ramp -/

/-- R109 cases 1 and 2. -/
theorem State.forcedToZero_iff (s : State) (f : FanId) :
    s.forcedToZero f = true ↔ (s.drive.fan f).state = .faultRest ∨ (s.drive.fan f).state = .locked
      ∨ s.resolver.mode = .startup ∨ s.resolver.mode = .standby ∨ s.frost.stage = .stop := by
  have out : (!(s.drive.fan f).state.available) = true ↔
      (s.drive.fan f).state = .faultRest ∨ (s.drive.fan f).state = .locked := by
    rw [Bool.not_eq_true', ← Bool.not_eq_true, FanState.available_iff, not_not]
  have stopped : s.resolver.mode.stopped = true ↔ s.resolver.mode = .startup ∨ s.resolver.mode = .standby := by
    cases s.resolver.mode <;> decide
  rw [State.forcedToZero, State.zeroTargets, Bool.or_eq_true, Bool.or_eq_true, out, stopped, decide_eq_true_iff]
  simp only [or_assoc]

section
variable (y : Fan) (r : DutyRequest) (low time : Nat)

theorem Fan.follow_of_drop (drop : r.drop = true) :
    y.follow r low time =
      { y with
        requested := 0, commanded := 0, step := none, state := if y.state = .running then .idle else y.state
        stall := if y.state = .running then 0 else y.stall } := by
  rw [Fan.follow, if_pos drop, Fan.drop]
  split <;> rfl

theorem Fan.follow_of_moving (kept : r.drop = false) (moving : y.commanded ≠ 0) :
    y.follow r low time =
      { y with
        requested := r.duty
        step := if y.commanded = r.duty then none else match y.step with | some n => some n | none => some time } := by
  rw [Fan.follow, if_neg (ne_true_of_eq_false kept), if_pos moving, Fan.redirect]
  cases y.step <;> rfl

theorem Fan.follow_of_start (kept : r.drop = false) (still : y.commanded = 0) (asked : 0 < r.duty) :
    y.follow r low time =
      { y with
        requested := r.duty, commanded := low, state := .running, step := if r.duty = low then none else some time } := by
  rw [Fan.follow, if_neg (ne_true_of_eq_false kept), if_neg (not_not.2 still), if_pos asked, Fan.start]

theorem Fan.follow_of_still (kept : r.drop = false) (still : y.commanded = 0) (unasked : r.duty = 0) :
    y.follow r low time = { y with requested := 0, step := none } := by
  rw [Fan.follow, if_neg (ne_true_of_eq_false kept), if_neg (not_not.2 still), if_neg (by omega)]

end

theorem Fan.ramping_iff (x : Fan) :
    x.ramping = true ↔ x.state = .running ∧ x.step.isSome = true ∧ x.commanded ≠ x.requested := by
  simp only [Fan.ramping, Bool.and_eq_true, decide_eq_true_iff, bne_iff_ne, and_assoc]

/-- R113: a step moves the duty. -/
theorem Fan.slewTo_ne {x : Fan} (apart : x.commanded ≠ x.requested) (first : Nat) :
    x.slewTo first ≠ x.commanded := by
  unfold Fan.slewTo
  split_ifs <;> omega

/-- A fan moved in the drive, with all that follows in the same event. -/
theorem State.moveFan_driveChanged_spec (s : State) (f : FanId) (x : Fan) :
    let t := (s.moveFan f x).driveChanged
    s.DriveMovedTo t ∧ s.DriveSettledTo t ∧ t.drive.fan f = x ∧ (∀ g, g ≠ f → t.drive.fan g = s.drive.fan g)
      ∧ t.drive.elapsed = (if x.commanded = (s.drive.fan f).commanded then s.drive.elapsed else 0)
      ∧ t.drive.steady = t.steadyNow := by
  intro t
  obtain ⟨moved, fans, elapsed, steady⟩ := State.driveChanged_spec (s.moveFan f x)
  have rest := Drive.moveFan_rest s.drive f x
  have self : (s.moveFan f x).drive.fan f = x := Drive.fan_moveFan_self ..
  have others : ∀ g, g ≠ f → (s.moveFan f x).drive.fan g = s.drive.fan g := fun g h => Drive.fan_moveFan_of_ne _ _ h
  have time : (s.moveFan f x).drive.elapsed = if x.commanded = (s.drive.fan f).commanded then s.drive.elapsed else 0 :=
    Drive.moveFan_elapsed ..
  refine ⟨(State.moveFan_driveMovedTo s f x).trans moved, ?_, (fans f).trans self,
    fun g h => (fans g).trans (others g h), elapsed.trans time, steady⟩
  refine State.driveChanged_settledTo rfl rfl rest.2.2.1 rest.2.2.2 (time.trans ?_)
  cases f
  · rw [show (s.moveFan .sup x).drive.ext = s.drive.ext from others .ext (by decide),
      show (s.moveFan .sup x).drive.sup = x from self]
    simp only [and_true]; rfl
  · rw [show (s.moveFan .ext x).drive.sup = s.drive.sup from others .sup (by decide),
      show (s.moveFan .ext x).drive.ext = x from self]
    simp only [true_and]; rfl

theorem exec_slewStep (running : s.running = true) :
    exec (.slewStep f) s = .next (if (s.drive.fan f).ramping then
      (s.moveFan f ((s.drive.fan f).slew (s.firstDuty f) s.params.slewInterval)).driveChanged else s) := by
  change execSlewStep f s = _
  rw [execSlewStep, partEvent_of_running running]

/-- Settles O34: the request by the cases of R109, the following by those of R113 to R115, and the step of a ramp by
`Fan.slewTo`. -/
theorem slewStepsMoveTheDutyByOne : Obligations.SlewStepsMoveTheDutyByOne := by
  intro f s x first interval zero
  have forced : s.forcedToZero f = true ↔ zero := s.forcedToZero_iff f
  refine ⟨fun h => if_pos (forced.2 h), fun h auto => ?_, fun h v direct => ?_, rfl, rfl,
    fun y r low time => ⟨Fan.follow_of_drop y r low time, Fan.follow_of_moving y r low time,
      Fan.follow_of_start y r low time, Fan.follow_of_still y r low time⟩,
    rfl, fun running => ?_⟩
  · rw [State.fanRequest, if_neg (mt forced.1 h), auto]
    cases f <;> rfl
  · rw [State.fanRequest, if_neg (mt forced.1 h), direct]
    rfl
  intro c
  refine ⟨fun turns steps apart => ?_, fun still => ?_⟩
  · have ramps : x.ramping = true := x.ramping_iff.2 ⟨turns, steps, apart⟩
    have reached : x.slewTo first = c := by
      simp only [Fan.slewTo, c]
      split_ifs <;> omega
    have slewed : x.slew first interval = if c = 0 then { x with commanded := 0, state := .idle, step := none, stall := 0 }
        else { x with commanded := c, step := if c = x.requested then none else some interval } := by
      rw [x.slew_eq, reached]
    obtain ⟨moved, settled, fan, others, elapsed, steady⟩ := s.moveFan_driveChanged_spec f (x.slew first interval)
    have changed : (x.slew first interval).commanded ≠ x.commanded := by
      have apart' := Fan.slewTo_ne apart first
      rw [reached] at apart'
      rw [slewed]
      split
      · next zero => rw [zero] at apart'; exact apart'
      · exact apart'
    have restarted := elapsed.trans (if_neg changed)
    refine ⟨_, (exec_slewStep running).trans (congrArg Host.Outcome.next (if_pos ramps)), moved, settled,
      fan.trans slewed, others, restarted, fun positive => ?_⟩
    have params := congrArg State.params moved.1
    refine steady.trans (Bool.and_eq_false_iff.2 (.inr (decide_eq_false ?_)))
    rw [params]
    exact fun h => absurd (h.trans_eq restarted) (by change ¬s.params.nat .steadyTime * 1000 ≤ 0; omega)
  · have stays : ¬x.ramping = true := by
      rw [x.ramping_iff]
      rintro ⟨turns, steps, apart⟩
      rcases still with h | h | h
      · exact h turns
      · rw [h] at steps; cases steps
      · exact apart h
    exact (exec_slewStep running).trans (congrArg Host.Outcome.next (if_neg stays))

/-! ### Codes -/

theorem bytesOf_one_toNat (b : Byte) : bytesOf 1 b.toNat = [b] := by
  rw [bytesOf, BitVec.ofNat_toNat, BitVec.setWidth_eq]
  rfl

/-- R198: the byte that names a member is its code. -/
theorem enumByte_of_memberOf {α : Type} [DecidableEq α] {members : List α} (once : members.Nodup) {b : Byte} {x : α}
    (named : memberOf members b = some x) : enumByte members x = [b] := by
  obtain ⟨lt, rfl⟩ := List.getElem?_eq_some_iff.1 named
  rw [enumByte, codeOf, once.idxOf_getElem _ lt, bytesOf_one_toNat]

/-! ### The source map and calibration -/

/-- A request formed again, with all that follows in the same event. -/
theorem State.formRequest_driveChanged_spec (s : State) (f : FanId) :
    let t := (s.formRequest f).driveChanged
    s.DriveMovedTo t ∧ s.DriveSettledTo t
      ∧ t.drive.fan f = (s.drive.fan f).follow (s.fanRequest f) (s.firstDuty f) s.params.slewInterval
      ∧ (∀ g, g ≠ f → t.drive.fan g = s.drive.fan g)
      ∧ (t.drive.fan f).requested = (t.fanRequest f).duty
      ∧ (t.drive.fan f).source = (s.drive.fan f).source
      ∧ (t.drive.fan f).attempts = (s.drive.fan f).attempts ∧ (t.drive.fan f).rest = (s.drive.fan f).rest
      ∧ (t.drive.fan f).state.available = (s.drive.fan f).state.available := by
  intro t
  obtain ⟨moved, fans, -, -⟩ := State.driveChanged_spec (s.formRequest f)
  obtain ⟨self, others, -, -, -⟩ := State.formRequest_spec s f
  obtain ⟨source, attempts, rest, -, available⟩ := State.formRequest_keeps s f f
  have whole : s.DriveMovedTo t := (State.formRequest_driveMovedTo s f).trans moved
  have fan : t.drive.fan f = (s.formRequest f).drive.fan f := fans f
  rw [← fan] at source attempts rest available
  refine ⟨whole, State.formRequest_settledTo s f, fan.trans self, fun g h => (fans g).trans (others g h), ?_, source,
    attempts, rest, available⟩
  have same : t.fanRequest f = s.fanRequest f := by
    refine State.fanRequest_congr ?_ ?_ ?_ ?_ source available
    · rw [whole.1]
    · rw [whole.1]
    · rw [whole.2.1]
    · rw [whole.2.1]
  rw [same, fan, State.formRequest_requested, if_pos rfl]

section
variable (answering : s.answering = true) {output source : Byte}
include answering

theorem exec_setSource_of_refused (refused : memberOf Output.members output = none ∨ memberOf sourceMembers source = none)
    (value : Half) : exec (.setSource output source value) s = .next (s.respond .badValue []) := by
  change execSetSource output source value s = _
  rw [execSetSource, hostCommand_of_answering answering]
  rcases refused with no_output | no_source
  · rw [no_output]; rfl
  · rw [no_source]; cases memberOf Output.members output <;> rfl

theorem exec_setSource_of_named {o : Output} {direct : Bool} (named : memberOf Output.members output = some o)
    (sourced : memberOf sourceMembers source = some direct) (value : Half) :
    exec (.setSource output source value) s = .next
      (if s.resolver.mode = .commission then
        (s.mapSource o (o.sourceOf direct value)).respond (clampStatus (s.sourceClamped o direct value))
          ((s.mapSource o (o.sourceOf direct value)).sourceReport o)
      else s.respond .wrongMode []) := by
  change execSetSource output source value s = _
  rw [execSetSource, hostCommand_of_answering answering, named, sourced]
  rfl

end

/-- R122: the byte of a source. -/
theorem memberOf_source {source : Byte} (named : source.toNat < 2) :
    memberOf sourceMembers source = some (decide (source.toNat = 1)) := by
  unfold memberOf sourceMembers
  generalize source.toNat = n at named
  rcases n with _ | _ | n
  · rfl
  · rfl
  · omega

theorem sourceOf_value (o : Output) (direct : Bool) (value : Half) :
    (o.sourceOf direct value).value.isSome = direct := by
  cases direct <;> rfl

section
variable {output source : Byte} {direct : Bool} (sourced : memberOf sourceMembers source = some direct)
include sourced

theorem State.sourceReport_fan (named : memberOf Output.members output = some (.fan f))
    (present : (t.drive.fan f).source.value.isSome = direct) :
    t.sourceReport (.fan f) =
      [output, source] ++ quantityField 2 (t.drive.fan f).source.value ++ bytesOf 2 (t.drive.fan f).requested := by
  have head : enumByte Output.members (.fan f) = [output] := enumByte_of_memberOf (by decide) named
  have next : enumByte sourceMembers direct = [source] := enumByte_of_memberOf (by decide) sourced
  simp only [State.sourceReport, present, head, next]
  rfl

theorem State.sourceReport_pre (named : memberOf Output.members output = some .pre)
    (present : t.drive.preheater.source.value.isSome = direct) :
    t.sourceReport .pre = [output, source] ++ quantityField 2 t.drive.preheater.source.value ++ bytesOf 2 0xFFFF := by
  have head : enumByte Output.members .pre = [output] := enumByte_of_memberOf (by decide) named
  have next : enumByte sourceMembers direct = [source] := enumByte_of_memberOf (by decide) sourced
  simp only [State.sourceReport, present, head, next]
  rfl

end

/-- R122: what makes SET_SOURCE of a fan answer CLAMPED. -/
theorem State.sourceClamped_fan (s : State) (f : FanId) (source : Byte) (value : Half) :
    s.sourceClamped (.fan f) (decide (source.toNat = 1)) value = true ↔
      source.toNat = 1 ∧ (1000 < value.toNat ∨
        (0 < value.toNat ∧ value.toNat < s.firstDuty f ∧ s.forcedToZero f = false)) := by
  change (decide (source.toNat = 1) && (decide (1000 < value.toNat) ||
    (!s.forcedToZero f && decide (0 < value.toNat) && decide (value.toNat < s.firstDuty f)))) = true ↔ _
  simp only [Bool.and_eq_true, Bool.or_eq_true, decide_eq_true_eq, Bool.not_eq_true', and_assoc]
  exact and_congr_right fun _ => or_congr_right ⟨fun ⟨free, asked, low⟩ => ⟨asked, low, free⟩,
    fun ⟨asked, low, free⟩ => ⟨free, asked, low⟩⟩

theorem clampStatus_cases (c : Bool) : clampStatus c = .ok ∨ clampStatus c = .clamped := by
  cases c
  · exact .inl rfl
  · exact .inr rfl

theorem clampStatus_clamped_iff (c : Bool) : clampStatus c = .clamped ↔ c = true := by
  cases c <;> decide

theorem State.setFanSource_keeps (s : State) (f : FanId) (x : DriveSource) :
    ((s.setFanSource f x).drive.fan f).source = x
      ∧ ((s.setFanSource f x).drive.fan f).attempts = (s.drive.fan f).attempts
      ∧ ((s.setFanSource f x).drive.fan f).rest = (s.drive.fan f).rest
      ∧ ((s.setFanSource f x).drive.fan f).state.available = (s.drive.fan f).state.available := by
  have named : s.moveFan f { s.drive.fan f with source := x } =
      { s with drive := s.drive.setFan f { s.drive.fan f with source := x } } := State.moveFan_of_same_duty rfl
  obtain ⟨-, -, -, -, -, keeps⟩ := State.formRequest_driveChanged_spec
    { s with drive := s.drive.setFan f { s.drive.fan f with source := x } } f
  rw [Drive.fan_setFan_self] at keeps
  rw [State.setFanSource, named]
  exact keeps

/-- R122: the codes of the fans among the outputs. -/
theorem memberOf_output_fan {output : Byte} (named : [FanId.sup, .ext][output.toNat]? = some f) :
    memberOf Output.members output = some (.fan f) := by
  unfold memberOf Output.members
  generalize output.toNat = n at named
  rcases n with _ | _ | n <;> cases named <;> rfl

theorem State.setPreSource_spec (s : State) (x : DriveSource) :
    let u : State := { s with drive := { s.drive with preheater := { s.drive.preheater with source := x } } }
    u.DriveMovedTo (s.setPreSource x) ∧ u.DriveSettledTo (s.setPreSource x)
      ∧ (∀ g, (s.setPreSource x).drive.fan g = s.drive.fan g) ∧ (s.setPreSource x).drive.elapsed = s.drive.elapsed
      ∧ (s.setPreSource x).drive.preheater.source = x := by
  intro u
  obtain ⟨moved, fans, elapsed, -⟩ := State.driveChanged_spec u
  have settled : u.DriveSettledTo u.driveChanged := State.driveChanged_settledTo rfl rfl rfl rfl (if_pos ⟨rfl, rfl⟩).symm
  refine ⟨moved, settled, fans, elapsed, ?_⟩
  change u.driveChanged.drive.preheater.source = x
  rw [moved.2.1]

/-- Settles O36: the named output takes the source; a fan's request is then formed again. -/
theorem setSourceMapsAnOutput : Obligations.SetSourceMapsAnOutput := by
  intro output source value s answering
  refine ⟨fun outside => exec_setSource_of_refused answering (outside.imp memberOf_eq_none memberOf_eq_none) value,
    fun output_named source_named other => ?_, fun commission source_named => ⟨fun f named => ?_, fun last => ?_⟩⟩
  · obtain ⟨o, named⟩ : ∃ o, memberOf Output.members output = some o :=
      ⟨_, List.getElem?_eq_getElem (l := Output.members) output_named⟩
    exact (exec_setSource_of_named answering named (memberOf_source source_named) value).trans
      (congrArg Host.Outcome.next (if_neg other))
  · intro x
    have output_named := memberOf_output_fan named
    have sourced := memberOf_source source_named
    have taken : Output.sourceOf (.fan f) (decide (source.toNat = 1)) value = x := by
      simp only [Output.sourceOf, decide_eq_true_iff, x, Output.top]
    have direct : x.value.isSome = decide (source.toNat = 1) := taken ▸ sourceOf_value ..
    obtain ⟨moved, settled, fan, others, requested⟩ := s.setFanSource_spec f x
    obtain ⟨present, attempts, rest, available⟩ := s.setFanSource_keeps f x
    refine ⟨s.setFanSource f x, clampStatus (s.sourceClamped (.fan f) (decide (source.toNat = 1)) value),
      (s.setFanSource f x).sourceReport (.fan f), ?_, moved, settled, fan, present, others, requested, attempts, rest,
      available, (clampStatus_clamped_iff _).trans (s.sourceClamped_fan f source value), clampStatus_cases _, ?_⟩
    · rw [exec_setSource_of_named answering output_named sourced, if_pos commission, taken]
      rfl
    · have := State.sourceReport_fan (t := s.setFanSource f x) sourced output_named (by rw [present]; exact direct)
      rw [this, present]
  · intro x
    have output_named : memberOf Output.members output = some .pre := by
      rw [memberOf, last]
      rfl
    have sourced := memberOf_source source_named
    have taken : Output.sourceOf .pre (decide (source.toNat = 1)) value = x := by
      simp only [Output.sourceOf, decide_eq_true_iff, x, Output.top]
    have direct : x.value.isSome = decide (source.toNat = 1) := taken ▸ sourceOf_value ..
    obtain ⟨moved, settled, fans, elapsed, present⟩ := s.setPreSource_spec x
    refine ⟨s.setPreSource x, ?_, moved, settled, fans, elapsed⟩
    rw [exec_setSource_of_named answering output_named sourced, if_pos commission, taken]
    have report := State.sourceReport_pre (t := s.setPreSource x) sourced output_named (by rw [present]; exact direct)
    rw [present] at report
    have status : clampStatus (s.sourceClamped .pre (decide (source.toNat = 1)) value) =
        if source.toNat = 1 ∧ 100 < value.toNat then .clamped else .ok := by
      change clampStatus (decide (source.toNat = 1) && (decide (100 < value.toNat) || false)) = _
      simp only [clampStatus, Bool.or_false, Bool.and_eq_true, decide_eq_true_eq]
    rw [status, State.mapSource, report]

/-- A changed block beside a move of the drive. -/
theorem State.DriveMovedTo.changed (h : s.DriveMovedTo t) (b : Block) :
    State.DriveMovedTo { s with store := s.store.change b } (t.changed b) := by
  have store : t.store = s.store := by rw [h.1]
  obtain ⟨rest, drive, channel⟩ := h
  refine ⟨?_, drive, channel⟩
  rw [State.changed, store]
  conv => lhs; rw [rest]

/-- A changed block beside what settles after a change of the drive. -/
theorem State.DriveSettledTo.changed (h : s.DriveSettledTo t) (b : Block) :
    State.DriveSettledTo { s with store := s.store.change b } (t.changed b) := by
  obtain ⟨elapsed, steady, effective, pin, channel⟩ := h
  exact ⟨elapsed, steady, effective, pin, channel⟩

/-- R107: the point that a byte names. -/
theorem pointOf_eq_some {point : Byte} {i : Fin 6} : pointOf point = some i ↔ point.toNat = i.val := by
  unfold pointOf
  split
  · rw [Option.some_inj, Fin.ext_iff]
  · next h =>
    constructor
    · intro h; cases h
    · intro same
      exact absurd (same ▸ i.isLt) h

theorem CalPoint.below_iff (a b : CalPoint) : a.below b = true ↔ a.duty < b.duty ∧ a.flow < b.flow := by
  rw [CalPoint.below, Bool.and_eq_true, decide_eq_true_iff, decide_eq_true_iff]

/-- R107: a point fits where it lies above the one before it and below the one after it. -/
theorem CalTable.fits_iff (t : CalTable) (i : Fin 6) (c : CalPoint) :
    CalTable.fits t i c = true ↔ (∀ j : Fin 6, j.val + 1 = i.val → t[j].duty < c.duty ∧ t[j].flow < c.flow)
      ∧ ∀ j : Fin 6, i.val + 1 = j.val → c.duty < t[j].duty ∧ c.flow < t[j].flow := by
  simp only [CalTable.fits, List.all_eq_true, List.mem_finRange, forall_const, ← CalPoint.below_iff]
  constructor
  · intro h
    refine ⟨fun j before => ?_, fun j after => ?_⟩
    · have := h j
      rwa [if_pos before] at this
    · have := h j
      rwa [if_neg (by omega), if_pos after] at this
  · rintro ⟨lower, upper⟩ j
    split_ifs with before after
    · exact lower j before
    · exact upper j after
    · rfl

section
variable (answering : s.answering = true) {fan point : Byte}
include answering

theorem exec_writeCal_of_refused (refused : memberOf fanMembers fan = none ∨ pointOf point = none) (duty flow : Half) :
    exec (.writeCal fan point duty flow) s = .next (s.respond .badValue []) := by
  change execWriteCal fan point duty flow s = _
  rw [execWriteCal, hostCommand_of_answering answering]
  rcases refused with no_fan | no_point
  · rw [no_fan]; rfl
  · rw [no_point]; cases memberOf fanMembers fan <;> rfl

theorem exec_writeCal_of_named {i : Fin 6} (named : memberOf fanMembers fan = some f) (placed : pointOf point = some i)
    (duty flow : Half) :
    exec (.writeCal fan point duty flow) s = .next
      (if CalPoint.allowed ⟨duty.toNat, flow.toNat⟩ && CalTable.fits (s.drive.cals.table f) i ⟨duty.toNat, flow.toNat⟩ then
        (s.writePoint f i ⟨duty.toNat, flow.toNat⟩).respond .ok ((s.writePoint f i ⟨duty.toNat, flow.toNat⟩).calReport f)
      else s.respond .badValue []) := by
  change execWriteCal fan point duty flow s = _
  rw [execWriteCal, hostCommand_of_answering answering, named, placed]
  rfl

end

/-- Settles O37: an admitted point replaces the old one, and its fan's request is formed again. -/
theorem writeCalReplacesAPoint : Obligations.WriteCalReplacesAPoint := by
  intro fan point duty flow s answering
  refine ⟨fun outside => exec_writeCal_of_refused answering (outside.imp memberOf_eq_none fun big => ?_) duty flow, ?_⟩
  · exact dif_neg (Nat.not_lt.2 big)
  intro f i named placed t allowed
  have run := exec_writeCal_of_named answering named (pointOf_eq_some.2 placed) duty flow
  have admitted : (CalPoint.allowed ⟨duty.toNat, flow.toNat⟩ && CalTable.fits t i ⟨duty.toNat, flow.toNat⟩) = true ↔
      allowed := by
    simp only [CalPoint.allowed, Bool.and_eq_true, decide_eq_true_eq, CalTable.fits_iff, allowed, and_assoc]
  refine ⟨fun h => run.trans (congrArg Host.Outcome.next (if_neg (mt admitted.1 h))), fun h => ?_⟩
  intro cals w
  let v : State := { s with drive := { s.drive with cals := cals } }
  obtain ⟨moved, settled, fan_eq, others, requested, source, -, -, available⟩ := v.formRequest_driveChanged_spec f
  have fans (g : FanId) : v.drive.fan g = s.drive.fan g := by cases g <;> rfl
  rw [fans f] at fan_eq source available
  have written : s.writePoint f i ⟨duty.toNat, flow.toNat⟩ = (v.formRequest f).driveChanged.changed .calibrations := rfl
  refine ⟨s.writePoint f i ⟨duty.toNat, flow.toNat⟩, run.trans (congrArg Host.Outcome.next (if_pos (admitted.2 h))), ?_⟩
  rw [written]
  generalize (v.formRequest f).driveChanged = u at moved settled fan_eq others requested source available
  refine ⟨moved.changed .calibrations, settled.changed .calibrations, fan_eq,
    fun g apart => (others g apart).trans (fans g), requested, source, available⟩

end Sys2Proof.Machine

/-! PROOFS. The tachometer inputs (R15, R16) and the moisture arithmetic (R17 to R19). -/

namespace Sys2Proof.Machine

/-! ### Pulses -/

section
variable {x : TachInput} {level : Bool}

theorem TachInput.sample_of_equal (accepted : x.accepted = some level) : x.sample level = { x with differs := false } := by
  simp only [TachInput.sample, accepted, if_true]

theorem TachInput.sample_of_first {high : Bool} (accepted : x.accepted = some level) (other : high ≠ level)
    (first : x.differs = false) : x.sample high = { x with differs := true } := by
  simp only [TachInput.sample, accepted, if_neg other, first]
  rfl

theorem TachInput.sample_of_second {high : Bool} (accepted : x.accepted = some level) (other : high ≠ level)
    (second : x.differs = true) :
    x.sample high =
      { x with accepted := some high, differs := false, pulses := if high then x.pulses + 1 else x.pulses } := by
  simp only [TachInput.sample, accepted, if_neg other, second, if_true]
  cases high <;> rfl

/-- R15: two samples of the other level take it over. -/
theorem TachInput.sample_twice (accepted : x.accepted = some level) :
    (x.sample (!level)).sample (!level) =
      { x with accepted := some (!level), differs := false, pulses := if !level then x.pulses + 1 else x.pulses } := by
  have other : (!level) ≠ level := by cases level <;> decide
  cases differs : x.differs with
  | false =>
    rw [TachInput.sample_of_first accepted other differs]
    exact TachInput.sample_of_second accepted other rfl
  | true =>
    rw [TachInput.sample_of_second accepted other differs]
    exact TachInput.sample_of_equal rfl

/-- R15: single samples of the other level leave the accepted level and the count. -/
theorem TachInput.samples_of_noise {samples : List Bool} (accepted : x.accepted = some level)
    (start : x.differs = true → samples.head? ≠ some (!level))
    (single : ∀ a b, samples ≠ a ++ [!level, !level] ++ b) :
    (samples.foldl TachInput.sample x).accepted = some level
      ∧ (samples.foldl TachInput.sample x).pulses = x.pulses := by
  induction samples generalizing x with
  | nil => exact ⟨accepted, rfl⟩
  | cons high rest ih =>
    have rest_single : ∀ a b, rest ≠ a ++ [!level, !level] ++ b := fun a b h => single (high :: a) b (by rw [h]; rfl)
    rw [List.foldl_cons]
    by_cases same : high = level
    · subst same
      rw [TachInput.sample_of_equal accepted]
      exact ih (x := { x with differs := false }) accepted (fun h => by cases h) rest_single
    · have other : high = !level := Bool.eq_not_of_ne same
      have first : x.differs = false := by
        cases differs : x.differs with
        | false => rfl
        | true => exact absurd (congrArg some other) (start differs)
      rw [TachInput.sample_of_first accepted same first]
      refine ih (x := { x with differs := true }) accepted (fun _ next => ?_) rest_single
      obtain ⟨tail, rfl⟩ : ∃ tail, rest = (!level) :: tail := by
        cases rest with
        | nil => cases next
        | cons h tail => exact ⟨tail, by rw [Option.some.inj next]⟩
      exact single [] tail (by rw [other]; rfl)

/-- R15: a pulse of two samples or more is counted once, whatever single samples of noise stand in it. -/
theorem TachInput.samples_of_pulse {high low : List Bool} (accepted : x.accepted = some false)
    (high_single : ∀ a b, high ≠ a ++ [false, false] ++ b) (low_single : ∀ a b, low ≠ a ++ [true, true] ++ b) :
    (([true, true] ++ high ++ ([false, false] ++ low)).foldl TachInput.sample x).accepted = some false
      ∧ (([true, true] ++ high ++ ([false, false] ++ low)).foldl TachInput.sample x).pulses = x.pulses + 1 := by
  simp only [List.foldl_append, List.foldl_cons, List.foldl_nil]
  have rises : (x.sample true).sample true =
      { x with accepted := some true, differs := false, pulses := x.pulses + 1 } := TachInput.sample_twice accepted
  rw [rises]
  obtain ⟨stays, kept⟩ := TachInput.samples_of_noise (samples := high) (level := true)
    (x := { x with accepted := some true, differs := false, pulses := x.pulses + 1 }) rfl (fun h => by cases h) high_single
  generalize high.foldl TachInput.sample _ = y at stays kept
  have falls : (y.sample false).sample false =
      { y with accepted := some false, differs := false, pulses := y.pulses } := TachInput.sample_twice stays
  rw [falls]
  obtain ⟨rests, counted⟩ := TachInput.samples_of_noise (samples := low) (level := false)
    (x := { y with accepted := some false, differs := false, pulses := y.pulses }) rfl (fun h => by cases h) low_single
  exact ⟨rests, counted.trans kept⟩

/-- R15: each pulse is counted. -/
theorem TachInput.samples_of_pulses {cycles : List (List Bool × List Bool)} (accepted : x.accepted = some false)
    (single : ∀ c ∈ cycles, (∀ a b, c.1 ≠ a ++ [false, false] ++ b) ∧ ∀ a b, c.2 ≠ a ++ [true, true] ++ b) :
    ((cycles.flatMap fun c => [true, true] ++ c.1 ++ ([false, false] ++ c.2)).foldl TachInput.sample x).pulses =
      x.pulses + cycles.length := by
  induction cycles generalizing x with
  | nil => rfl
  | cons c rest ih =>
    obtain ⟨high_single, low_single⟩ := single c List.mem_cons_self
    obtain ⟨falls, counted⟩ := TachInput.samples_of_pulse accepted high_single low_single
    rw [List.flatMap_cons, List.foldl_append, ih falls fun d mem => single d (List.mem_cons_of_mem _ mem), counted,
      List.length_cons]
    omega

end

/-- Settles O28: the equations of a sample, and the count of pulses by induction on them. -/
theorem tachWindowsCountPulses : Obligations.TachWindowsCountPulses := by
  refine ⟨fun x high => ⟨fun first => ?_, fun level accepted => ⟨?_, TachInput.sample_of_first accepted,
    TachInput.sample_of_second accepted⟩⟩, fun x => rfl, fun x high rest => rfl, fun x cycles accepted single => ?_⟩
  · simp only [TachInput.sample, first]
  · rintro rfl
    exact TachInput.sample_of_equal accepted
  · change min 65535 (_ * 30) = _
    rw [TachInput.samples_of_pulses accepted single]

/-! ### The saturation table -/

theorem saturation_rises : ∀ i < 20, saturation i < saturation (i + 1) := by decide

theorem saturation_bounds : ∀ i < 21, 8 ≤ saturation i ∧ saturation i ≤ 15245 := by decide

/-- R17: the table around one of its entries. -/
theorem saturationTable_split : ∀ i < 20, (saturationTable.take (i + 1)).length = i + 1
    ∧ (∀ e ∈ saturationTable.take (i + 1), e ≤ saturation i)
    ∧ ∀ e ∈ saturationTable.drop (i + 1), saturation (i + 1) ≤ e := by decide

/-- R19: the index of a moisture content between two entries. -/
theorem saturationIndex_of_between {i x : Nat} (lt : i < 20) (lower : saturation i ≤ x) (upper : x < saturation (i + 1)) :
    saturationIndex x = i := by
  obtain ⟨length, below, above⟩ := saturationTable_split i lt
  have first : (saturationTable.take (i + 1)).countP (fun e => decide (e ≤ x)) = i + 1 :=
    (List.countP_eq_length.2 fun e mem => decide_eq_true ((below e mem).trans lower)).trans length
  have rest : (saturationTable.drop (i + 1)).countP (fun e => decide (e ≤ x)) = 0 :=
    List.countP_eq_zero.2 fun e mem h => absurd (upper.trans_le (above e mem)) (by simpa using h)
  rw [saturationIndex, ← List.take_append_drop (i + 1) saturationTable, List.countP_append, first, rest]
  rfl

/-- R19: a moisture content within the table lies between two of its entries. -/
theorem exists_saturation_between {x n : Nat} (lower : saturation 0 ≤ x) (upper : x < saturation n) :
    ∃ i < n, saturation i ≤ x ∧ x < saturation (i + 1) := by
  induction n with
  | zero => omega
  | succ n ih =>
    by_cases h : x < saturation n
    · obtain ⟨i, lt, between⟩ := ih h
      exact ⟨i, by omega, between⟩
    · exact ⟨n, by omega, by omega, upper⟩

/-! ### Moisture content and dew point -/

theorem roundDiv_mul_self (a : Nat) {b : Nat} (pos : 0 < b) : roundDiv (a * b) b = a := by
  refine Nat.div_eq_of_lt_le ?_ ?_ <;> nlinarith

theorem roundDiv_mono {a a' : Nat} (h : a ≤ a') (b : Nat) : roundDiv a b ≤ roundDiv a' b :=
  Nat.div_le_div_right (by omega)

/-- R18: the moisture content of saturated air, by the interval of its temperature. -/
def saturatedMoisture (t : Int) : Nat :=
  let u := (clampInt (-400) 600 t + 400).toNat
  saturation (min 19 (u / 50))
    + roundDiv ((saturation (min 19 (u / 50) + 1) - saturation (min 19 (u / 50))) * (u - 50 * min 19 (u / 50))) 50

theorem moisture_eq (t rh : Int) : moisture t rh = roundDiv (saturatedMoisture t * (clampInt 0 1000 rh).toNat) 1000 := rfl

/-- R18: the interval of a temperature, and the place in it. -/
theorem exists_interval {t : Int} (lower : -400 ≤ t) (upper : t ≤ 600) :
    ∃ i f : Nat, i < 20 ∧ f ≤ 50 ∧ t = 50 * i + f - 400
      ∧ moisture t 1000 = saturation i + roundDiv ((saturation (i + 1) - saturation i) * f) 50 := by
  obtain ⟨u, rfl⟩ : ∃ u : Nat, t = u - 400 := ⟨(t + 400).toNat, by omega⟩
  have inside : clampInt (-400) 600 ((u : Int) - 400) = u - 400 := clampInt_of_mem lower upper
  refine ⟨min 19 (u / 50), u - 50 * min 19 (u / 50), by omega, by omega, by omega, ?_⟩
  have place : (clampInt (-400) 600 ((u : Int) - 400) + 400).toNat = u := by rw [inside]; omega
  rw [moisture_eq, show (clampInt 0 1000 1000).toNat = 1000 from rfl, roundDiv_mul_self _ (by decide)]
  simp only [saturatedMoisture, place]

/-- R18: saturated air holds no more than the upper end of its interval. -/
theorem interpolated_le {low high f : Nat} (rises : low ≤ high) (le : f ≤ 50) :
    low + roundDiv ((high - low) * f) 50 ≤ high := by
  have top : roundDiv ((high - low) * f) 50 ≤ roundDiv ((high - low) * 50) 50 :=
    roundDiv_mono (Nat.mul_le_mul_left _ le) 50
  rw [roundDiv_mul_self _ (by decide)] at top
  omega

theorem saturatedMoisture_le (t : Int) : saturatedMoisture t ≤ 15245 := by
  have inside : (clampInt (-400) 600 t + 400).toNat ≤ 1000 := by rw [clampInt_eq_min_max (by decide)]; omega
  unfold saturatedMoisture
  generalize (clampInt (-400) 600 t + 400).toNat = u at inside
  have lt : min 19 (u / 50) < 20 := by omega
  exact (interpolated_le (saturation_rises _ lt).le (by omega)).trans (saturation_bounds _ (by omega)).2

/-- R19: the dew point, by the interval of the moisture content. -/
theorem dewPoint_between {i x : Nat} (lt : i < 20) (lower : saturation i ≤ x) (upper : x ≤ saturation (i + 1)) :
    dewPoint x = 50 * i + roundDiv (50 * (x - saturation i)) (saturation (i + 1) - saturation i) - 400 := by
  have least := (saturation_bounds i (by omega)).1
  have rises := saturation_rises i lt
  have inner {j y : Nat} (lt : j < 20) (lower : saturation j ≤ y) (upper : y < saturation (j + 1)) :
      dewPoint y = 50 * j + roundDiv (50 * (y - saturation j)) (saturation (j + 1) - saturation j) - 400 := by
    have least := (saturation_bounds j (by omega)).1
    have greatest := (saturation_bounds (j + 1) (by omega)).2
    rw [dewPoint, if_neg (by omega), if_neg (by omega)]
    simp only [saturationIndex_of_between lt lower upper]
  rcases upper.lt_or_eq with inside | rfl
  · exact inner lt lower inside
  · have whole : roundDiv (50 * (saturation (i + 1) - saturation i)) (saturation (i + 1) - saturation i) = 50 :=
      roundDiv_mul_self 50 (by omega)
    rw [whole]
    rcases (show i + 1 < 20 ∨ i = 19 by omega) with next | rfl
    · rw [inner next le_rfl (saturation_rises (i + 1) next), Nat.sub_self, Nat.mul_zero,
        show roundDiv 0 _ = 0 from Nat.div_eq_of_lt (by have := saturation_rises (i + 1) next; omega)]
      push_cast
      ring
    · rfl

/-- R18 and R19: the error of one rounding to the table's integers and one to the tenth of a degree. -/
theorem roundTrip_bounds {d f : Nat} (pos : 0 < d) :
    let back := roundDiv (50 * roundDiv (d * f) 50) d
    2 * d * back ≤ 2 * d * f + 50 + d ∧ 2 * d * f + d < 2 * d * (back + 1) + 50 := by
  intro back
  obtain ⟨high, low⟩ := roundDiv_bounds (d * f) (b := 50) (by decide)
  obtain ⟨high', low'⟩ := roundDiv_bounds (50 * roundDiv (d * f) 50) pos
  constructor <;> nlinarith

/-- R18 and R19: the round trip stays within `k` tenths where the table's step is large enough for it. -/
theorem roundTrip_within {d f k : Nat} (pos : 0 < d) (step : 50 + d < 2 * d * (k + 1)) :
    roundDiv (50 * roundDiv (d * f) 50) d ≤ f + k ∧ f ≤ roundDiv (50 * roundDiv (d * f) 50) d + k := by
  obtain ⟨high, low⟩ := roundTrip_bounds (f := f) pos
  constructor
  · by_contra far
    nlinarith [Nat.mul_le_mul_left (2 * d) (show f + k + 1 ≤ roundDiv (50 * roundDiv (d * f) 50) d by omega)]
  · by_contra far
    nlinarith [Nat.mul_le_mul_left (2 * d) (show roundDiv (50 * roundDiv (d * f) 50) d + k + 1 ≤ f by omega)]

/-- Air at saturation turned back into a dew point. -/
theorem dewPoint_saturated {i f : Nat} (lt : i < 20) (le : f ≤ 50) :
    dewPoint (saturation i + roundDiv ((saturation (i + 1) - saturation i) * f) 50) =
      50 * i + roundDiv (50 * roundDiv ((saturation (i + 1) - saturation i) * f) 50)
        (saturation (i + 1) - saturation i) - 400 := by
  rw [dewPoint_between lt (Nat.le_add_right _ _) (interpolated_le (saturation_rises i lt).le le), Nat.add_sub_cancel_left]

theorem saturation_step_ge : ∀ i < 20, 6 ≤ saturation (i + 1) - saturation i := by decide

theorem saturation_step_ge_of_warm : ∀ i < 20, 3 ≤ i → 24 ≤ saturation (i + 1) - saturation i := by decide

/-- R18 and R19: in the interval below -25.0 °C, whose step is 16, the last eleven tenths. -/
theorem roundTrip_cold : ∀ f : Fin 51, 40 ≤ f.val →
    f.val ≤ roundDiv (50 * roundDiv (16 * f.val) 50) 16 + 1 ∧ roundDiv (50 * roundDiv (16 * f.val) 50) 16 ≤ f.val + 1 := by
  decide

/-- Settles O29: the table by evaluation, the round trip interval by interval from `roundTrip_bounds`. -/
theorem moistureArithmetic : Obligations.MoistureArithmetic := by
  refine ⟨rfl, saturation_rises, fun i le => ?points, fun t lower upper => ?fine, fun t lower upper => ?coarse,
    fun t rh rh' h => ?mono, fun t rh dry => ?dry, fun t rh => ?most, fun x => ?range⟩
  case points =>
    obtain ⟨j, f, lt, f_le, place, content⟩ := exists_interval (t := 50 * i - 400) (by omega) (by omega)
    have pos : 0 < saturation (j + 1) - saturation j := by have := saturation_step_ge j lt; omega
    rw [content, dewPoint_saturated lt f_le]
    rcases (show f = 0 ∨ f = 50 by omega) with rfl | rfl
    · rw [Nat.mul_zero, show roundDiv 0 50 = 0 from rfl, show roundDiv (50 * 0) _ = 0 from
        Nat.div_eq_of_lt (by omega)]
      omega
    · rw [roundDiv_mul_self _ (by decide), roundDiv_mul_self 50 pos]
      omega
  case fine =>
    obtain ⟨i, f, lt, le, rfl, content⟩ := exists_interval (by omega) upper
    rw [content, dewPoint_saturated lt le]
    have near : f ≤ roundDiv (50 * roundDiv ((saturation (i + 1) - saturation i) * f) 50)
          (saturation (i + 1) - saturation i) + 1
        ∧ roundDiv (50 * roundDiv ((saturation (i + 1) - saturation i) * f) 50)
          (saturation (i + 1) - saturation i) ≤ f + 1 := by
      rcases (show i = 2 ∨ 3 ≤ i by omega) with rfl | warm
      · exact roundTrip_cold ⟨f, by omega⟩ (by change 40 ≤ f; omega)
      · have step := saturation_step_ge_of_warm i lt warm
        exact (roundTrip_within (by omega) (by omega)).symm
    omega
  case coarse =>
    obtain ⟨i, f, lt, le, rfl, content⟩ := exists_interval lower upper
    rw [content, dewPoint_saturated lt le]
    have step := saturation_step_ge i lt
    have near := roundTrip_within (d := saturation (i + 1) - saturation i) (f := f) (k := 4) (by omega) (by omega)
    omega
  case mono =>
    rw [moisture_eq, moisture_eq, clampInt_eq_min_max (by decide), clampInt_eq_min_max (by decide)]
    exact roundDiv_mono (Nat.mul_le_mul_left _ (by omega)) 1000
  case dry =>
    have none_held : (clampInt 0 1000 rh).toNat = 0 := by rw [clampInt_eq_min_max (by decide)]; omega
    rw [moisture_eq, none_held, Nat.mul_zero]
    rfl
  case most =>
    have humidity : (clampInt 0 1000 rh).toNat ≤ 1000 := by rw [clampInt_eq_min_max (by decide)]; omega
    calc moisture t rh
      _ = roundDiv (saturatedMoisture t * (clampInt 0 1000 rh).toNat) 1000 := moisture_eq t rh
      _ ≤ roundDiv (15245 * 1000) 1000 := roundDiv_mono (Nat.mul_le_mul (saturatedMoisture_le t) humidity) 1000
      _ = 15245 := rfl
  case range =>
    unfold dewPoint
    split_ifs with low high
    · omega
    · omega
    · obtain ⟨i, lt, between⟩ := exists_saturation_between (x := x) (n := 20) (Nat.not_lt.1 low) (Nat.not_le.1 high)
      rw [saturationIndex_of_between lt between.1 between.2]
      have part : roundDiv (50 * (x - saturation i)) (saturation (i + 1) - saturation i) ≤ 50 := by
        have top := roundDiv_mono (show 50 * (x - saturation i) ≤ 50 * (saturation (i + 1) - saturation i) by omega)
          (saturation (i + 1) - saturation i)
        rwa [roundDiv_mul_self 50 (by omega)] at top
      dsimp only
      omega

end Sys2Proof.Machine

/-! PROOFS. The passing of time with no command waiting (assumptions 2, 6 to 10). -/

namespace Sys2Proof.Machine

variable {s : State} {e : Instr}

/-! ### Due events -/

theorem mem_dueIf {c : Bool} {x : Instr} : e ∈ dueIf c x ↔ e = x ∧ c = true := by
  cases c <;> simp [dueIf]

theorem Exchange.mem_due {x : Exchange} :
    e ∈ x.due ↔ (e = .pollEnd ∧ ∃ t, 4 ≤ t ∧ ((∃ n y, x = .sending n y t) ∨ ∃ y, x = .void y t))
      ∨ e = .replyTimeout ∧ ∃ n t b, x = .window n t b ∧ (30 ≤ t ∨ 15 ≤ t ∧ b = false) := by
  cases x with
  | idle => simp [Exchange.due]
  | sending n y t => simp [Exchange.due, mem_dueIf, decide_eq_true_eq, show pollTime ≤ t ↔ 4 ≤ t from .rfl]
  | void y t => simp [Exchange.due, mem_dueIf, decide_eq_true_eq, show pollTime ≤ t ↔ 4 ≤ t from .rfl]
  | window n t b =>
    simp only [Exchange.due, mem_dueIf, Bool.or_eq_true, Bool.and_eq_true, decide_eq_true_eq, Bool.not_eq_true']
    constructor
    · rintro ⟨rfl, ended⟩
      exact .inr ⟨rfl, n, t, b, rfl, ended⟩
    · rintro (⟨-, t, -, ⟨n, y, h⟩ | ⟨y, h⟩⟩ | ⟨rfl, n, t, b, h, ended⟩)
      · cases h
      · cases h
      · cases h
        exact ⟨rfl, ended⟩

theorem State.startupOver_iff (s : State) :
    s.startupOver = true ↔ s.resolver.mode = .startup
      ∧ ((s.sensing.oa.status ≠ .pending ∧ s.sensing.sa.status ≠ .pending ∧ s.sensing.ea.status ≠ .pending
        ∧ s.sensing.eha.status ≠ .pending) ∨ 3 ≤ s.clock.seconds) := by
  simp only [State.startupOver, Bool.and_eq_true, Bool.or_eq_true, decide_eq_true_iff, bne_iff_ne, and_assoc]

theorem State.settleOver_iff (s : State) :
    s.settleOver = true ↔ (∃ f, s.pressure.phase = .select f) ∧ 4000 ≤ s.clock.ms - s.pressure.arrival := by
  unfold State.settleOver
  split
  · next f phase =>
    rw [decide_eq_true_iff]
    exact (and_iff_right ⟨f, phase⟩).symm
  · next phase => simp [phase]
  · next phase => simp [phase]

theorem State.onTimeOver_iff (s : State) :
    s.onTimeOver = true ↔ s.drive.preheater.pin = true ∧ s.drive.preheater.effective < 100
      ∧ s.drive.preheater.effective * 100 ≤ s.clock.ms - s.drive.preheater.periodStart := by
  simp only [State.onTimeOver, Bool.and_eq_true, decide_eq_true_iff, and_assoc]

theorem Store.canStart_iff (m : Store) :
    m.canStart = true ↔ m.writing = none
      ∧ ((∃ b rest, m.clearing = some (b :: rest)) ∨ m.clearing = none ∧ m.queue ≠ []) := by
  unfold Store.canStart
  rw [Bool.and_eq_true, Option.isNone_iff_eq_none]
  refine and_congr_right fun _ => ?_
  split
  · next rest clearing => cases rest <;> simp [clearing]
  · next clearing => simp [clearing]

theorem Store.clearDone_iff (m : Store) : m.clearDone = true ↔ m.clearing = some [] ∧ m.writing = none := by
  simp only [Store.clearDone, Bool.and_eq_true, decide_eq_true_iff, Option.isNone_iff_eq_none]

/-- R53: a slot waits for the marks of its round. -/
theorem mem_orderSlots {es : List Instr} :
    e ∈ orderSlots es ↔ e ∈ es ∧ (e = .pollSlot → .pollRoundStart ∉ es) := by
  unfold orderSlots
  split
  · next starts =>
    have starts : Instr.pollRoundStart ∈ es := List.contains_iff_mem.1 starts
    simp [starts]
  · next calm =>
    have calm : Instr.pollRoundStart ∉ es := fun h => calm (List.contains_iff_mem.2 h)
    simp [calm]

theorem State.mem_due (s : State) :
    e ∈ s.due ↔ e ∈ s.immediate ∨ e ∈ s.agenda ∧ s.stillDue e = true ∧ (e = .pollSlot → .pollRoundStart ∉ s.agenda) := by
  have starts : Instr.pollRoundStart ∈ s.agenda.filter s.stillDue ↔ .pollRoundStart ∈ s.agenda := by
    rw [List.mem_filter]
    exact and_iff_left rfl
  rw [State.due, List.mem_append, mem_orderSlots, starts, List.mem_filter, and_assoc]

theorem State.chosen_lt (some_due : s.due ≠ []) : s.chosen < s.due.length := by
  have pos : 0 < s.due.length := List.length_pos_of_ne_nil some_due
  unfold State.chosen
  split
  · exact pos
  · exact Nat.mod_lt _ pos

/-! ### Timers that run out -/

theorem Fan.ramping_stepEnding (x : Fan) :
    x.stepEnding = true ↔ x.state = .running ∧ x.step = some 1 ∧ x.commanded ≠ x.requested := by
  rw [Fan.stepEnding, Bool.and_eq_true, decide_eq_true_iff, x.ramping_iff]
  constructor
  · rintro ⟨⟨turns, -, apart⟩, last⟩
    exact ⟨turns, last, apart⟩
  · rintro ⟨turns, last, apart⟩
    exact ⟨⟨turns, by rw [last]; rfl, apart⟩, last⟩

theorem mem_fanMembers (f : FanId) : f ∈ fanMembers := by cases f <;> decide

theorem State.mem_msExpiries (s : State) :
    e ∈ s.msExpiries ↔
      (∃ f, e = .slewStep f ∧ (s.drive.fan f).state = .running ∧ (s.drive.fan f).step = some 1
        ∧ (s.drive.fan f).commanded ≠ (s.drive.fan f).requested)
      ∨ e = .trimTimerExpiry ∧ s.pressure.trimTimer = some 1
      ∨ e = .filterTimerExpiry ∧ s.pressure.filterTimer = some 1
      ∨ e = .frostTimerExpiry ∧ s.pressure.frostTimer = some 1 := by
  simp only [State.msExpiries, List.mem_append, List.mem_map, List.mem_filter, mem_fanMembers, true_and, mem_dueIf,
    decide_eq_true_eq, Fan.ramping_stepEnding, or_assoc]
  refine or_congr_left (exists_congr fun f => ?_)
  rw [and_comm, eq_comm]

theorem mem_slotStart {ms : Nat} : e ∈ slotStart ms ↔ e = .pollSlot ∧ 1000 ≤ ms ∧ ms % 50 = 0 := by
  simp only [slotStart, mem_dueIf, Bool.and_eq_true, decide_eq_true_eq]

theorem AnalogChannel.mem_all (c : AnalogChannel) : c ∈ AnalogChannel.all := by cases c <;> decide

/-- R158: the counter's next value opens or closes a window. -/
theorem Frost.beforeEdge_iff (g : Frost) :
    g.beforeEdge = true ↔ g.stage = .cycle ∧ g.counter < g.latched.limit
      ∧ g.latched.windowsAt (g.counter + 1) ≠ g.latched.windowsAt g.counter := by
  rw [Frost.beforeEdge, Bool.and_eq_true, decide_eq_true_iff, decide_eq_true_iff, CycleTimes.nextEdge_succ_iff]
  rfl

theorem Frost.atLimit_iff (g : Frost) : g.atLimit = true ↔ g.stage = .cycle ∧ g.latched.limit ≤ g.counter := by
  rw [Frost.atLimit, Bool.and_eq_true, decide_eq_true_iff, decide_eq_true_iff]

theorem mem_map_filter {α : Type} {xs : List α} (all : ∀ x, x ∈ xs) {c : α → Bool} {f : α → Instr} :
    e ∈ (xs.filter c).map f ↔ ∃ x, e = f x ∧ c x = true := by
  simp only [List.mem_map, List.mem_filter, all, true_and]
  exact exists_congr fun x => and_comm.trans (and_congr_left fun _ => eq_comm)

theorem Fan.restEnding_iff (x : Fan) : x.restEnding = true ↔ x.state = .faultRest ∧ x.rest = 1 := by
  rw [Fan.restEnding, Bool.and_eq_true, decide_eq_true_iff, decide_eq_true_iff]

theorem Fan.cleanRunEnding_iff (x : Fan) : x.cleanRunEnding = true ↔ x.state = .running ∧ x.cleanRun = 599 := by
  rw [Fan.cleanRunEnding, Bool.and_eq_true, decide_eq_true_iff, decide_eq_true_iff]

theorem State.mem_secondExpiries (s : State) :
    e ∈ s.secondExpiries ↔
      (∃ c, e = .holdTimerExpiry c ∧ (s.sensing.channel c).hold = 1)
      ∨ (∃ r ∈ s.demand.live, e = .demandExpiry r.handle ∧ r.remaining = some 1)
      ∨ (∃ n : StationId, e = .stationHoldExpiry n ∧ s.bus.stations[n].hold = 1)
      ∨ (∃ i, e = .inhibitTimerExpiry i ∧ (s.humidity.source i).inhibit = 1)
      ∨ (∃ f, e = .restEnd f ∧ (s.drive.fan f).state = .faultRest ∧ (s.drive.fan f).rest = 1)
      ∨ (∃ f, e = .cleanRunEnd f ∧ (s.drive.fan f).state = .running ∧ (s.drive.fan f).cleanRun = 599)
      ∨ (e = .cycleWrap ∧ s.frost.stage = .cycle ∧ s.frost.latched.limit ≤ s.frost.counter)
      ∨ e = .windowEdge ∧ s.frost.stage = .cycle ∧ s.frost.counter < s.frost.latched.limit
        ∧ s.frost.latched.windowsAt (s.frost.counter + 1) ≠ s.frost.latched.windowsAt s.frost.counter := by
  have demand : e ∈ (s.demand.live.filter fun r => r.remaining = some 1).map (fun r => Instr.demandExpiry r.handle) ↔
      ∃ r ∈ s.demand.live, e = .demandExpiry r.handle ∧ r.remaining = some 1 := by
    simp only [List.mem_map, List.mem_filter, decide_eq_true_eq, and_assoc]
    exact exists_congr fun r => and_congr_right fun _ => and_comm.trans (and_congr_left fun _ => eq_comm)
  have edge : (!s.frost.atLimit && s.frost.beforeEdge) = true ↔ s.frost.beforeEdge = true := by
    rw [Bool.and_eq_true, Bool.not_eq_true', ← Bool.not_eq_true, s.frost.atLimit_iff, s.frost.beforeEdge_iff]
    exact and_iff_right_of_imp fun ⟨_, below, _⟩ h => absurd below (Nat.not_lt.2 h.2)
  simp only [State.secondExpiries, List.mem_append, demand, mem_map_filter AnalogChannel.mem_all,
    mem_map_filter List.mem_finRange, mem_map_filter SourceId.mem_all, mem_map_filter mem_fanMembers, mem_dueIf, edge,
    decide_eq_true_eq, Fan.restEnding_iff, Fan.cleanRunEnding_iff, Frost.atLimit_iff, Frost.beforeEdge_iff, or_assoc]

theorem mem_periodic {n : Nat} :
    e ∈ periodic n ↔ e = .pollRoundStart ∨ ((e = .frostEvaluation ∨ e = .preheatPeriodStart) ∧ n % 10 = 0)
      ∨ ((∃ i, e = .humiditySample i) ∧ n % 30 = 0) ∨ (e = .volumeAddition ∧ n % 60 = 0)
      ∨ e = .operatingHoursAdvance ∧ n % 3600 = 0 := by
  have samples : e ∈ (if n % 30 = 0 then SourceId.all.map Instr.humiditySample else []) ↔
      (∃ i, e = .humiditySample i) ∧ n % 30 = 0 := by
    split
    · next third => simp [SourceId.mem_all, third, eq_comm]
    · next other => simp [other]
  simp only [periodic, List.mem_append, List.mem_singleton, mem_dueIf, samples, decide_eq_true_eq, or_and_right, or_assoc]

theorem State.mem_immediate (s : State) :
    e ∈ s.immediate ↔
      (e = .loadingEnd ∧ s.link.loading = true ∧ 20 ≤ s.clock.ms)
      ∨ (e = .startupEnd ∧ s.startupOver = true)
      ∨ (e = .steadinessReached ∧ s.steadyNow = true ∧ s.drive.steady = false)
      ∨ (e = .settleEnd ∧ s.settleOver = true)
      ∨ e ∈ s.bus.exchange.due
      ∨ (e = .preheatOnTimeEnd ∧ s.onTimeOver = true)
      ∨ (e = .storeWriteStart ∧ s.store.canStart = true)
      ∨ (e = .storeWriteComplete ∧ s.store.writing ≠ none ∧ 250 ≤ s.store.writeElapsed)
      ∨ e = .factoryClearDone ∧ s.store.clearDone = true := by
  simp only [State.immediate, List.mem_append, mem_dueIf, State.steadinessDue, Bool.and_eq_true, decide_eq_true_eq,
    Bool.not_eq_true', Option.isSome_iff_ne_none, or_assoc]

/-! ### A millisecond and a whole second -/

theorem State.advance_of_whole (whole : (s.clock.ms + 1) % 1000 = 0 ∧ s.clock.seconds < 4294967295) :
    s.advance = s.tickMs.tickSecond := by
  have : s.tickMs.clock.wholeSecond = true := by
    rw [Clock.wholeSecond, Bool.and_eq_true, decide_eq_true_iff, decide_eq_true_iff]
    exact whole
  exact if_pos this

theorem State.advance_of_part (part : ¬((s.clock.ms + 1) % 1000 = 0 ∧ s.clock.seconds < 4294967295)) :
    s.advance = s.tickMs := by
  refine if_neg fun whole => part ?_
  rwa [Clock.wholeSecond, Bool.and_eq_true, decide_eq_true_iff, decide_eq_true_iff] at whole

/-- A millisecond leaves the timers that a whole second runs out. -/
theorem State.tickMs_secondExpiries (s : State) : s.tickMs.secondExpiries = s.secondExpiries := by
  have rests : (fun f => (s.tickMs.drive.fan f).restEnding) = fun f => (s.drive.fan f).restEnding :=
    funext fun f => by cases f <;> rfl
  have runs : (fun f => (s.tickMs.drive.fan f).cleanRunEnding) = fun f => (s.drive.fan f).cleanRunEnding :=
    funext fun f => by cases f <;> rfl
  rw [State.secondExpiries, rests, runs]
  rfl

theorem Sensing.tickSecond_channel (x : Sensing) (c : AnalogChannel) : x.tickSecond.channel c = (x.channel c).tickSecond := by
  cases c <;> rfl

theorem Humidity.tickSecond_source (h : Humidity) (i : SourceId) : h.tickSecond.source i = (h.source i).tickSecond := by
  cases i with
  | extract => rfl
  | station n => exact Vector.getElem_ofFn _

theorem Bus.tickSecond_station (b : Bus) (n : StationId) :
    b.tickSecond.stations[n] = { b.stations[n] with hold := countDown b.stations[n].hold } := Vector.getElem_ofFn _

theorem Frost.tickStop_eq (g : Frost) :
    g.tickStop = { g with
      stopTimer := if g.stage = .stop ∧ g.reason = .iced then min 3600 (g.stopTimer + 1) else g.stopTimer } := by
  unfold Frost.tickStop
  split <;> rfl

theorem Frost.tickCounter_eq (g : Frost) :
    g.tickCounter =
      { g with
        counter := if g.stage = .cycle ∧ g.counter < g.latched.limit
            ∧ ¬(g.stage = .cycle ∧ g.counter < g.latched.limit
              ∧ g.latched.windowsAt (g.counter + 1) ≠ g.latched.windowsAt g.counter) then g.counter + 1
          else g.counter } := by
  have counts : (g.stage = .cycle ∧ (!g.atLimit) = true ∧ (!g.beforeEdge) = true) ↔
      g.stage = .cycle ∧ g.counter < g.latched.limit ∧ ¬(g.stage = .cycle ∧ g.counter < g.latched.limit
        ∧ g.latched.windowsAt (g.counter + 1) ≠ g.latched.windowsAt g.counter) := by
    rw [Bool.not_eq_true', Bool.not_eq_true', ← Bool.not_eq_true, ← Bool.not_eq_true, g.atLimit_iff, g.beforeEdge_iff]
    exact and_congr_right fun cycles => and_congr_left' (by rw [not_and, Nat.not_le]; exact ⟨fun f => f cycles, fun f _ => f⟩)
  unfold Frost.tickCounter
  split
  · next h => rw [if_pos (counts.1 h)]
  · next h => rw [if_neg (mt counts.2 h)]

/-- R150 and R157: the guard's second. -/
theorem Frost.tick_eq (g : Frost) :
    g.tickStop.tickCounter =
      { g with
        stopTimer := if g.stage = .stop ∧ g.reason = .iced then min 3600 (g.stopTimer + 1) else g.stopTimer
        counter := if g.stage = .cycle ∧ g.counter < g.latched.limit
            ∧ ¬(g.stage = .cycle ∧ g.counter < g.latched.limit
              ∧ g.latched.windowsAt (g.counter + 1) ≠ g.latched.windowsAt g.counter) then g.counter + 1
          else g.counter } := by
  rw [Frost.tickCounter_eq, Frost.tickStop_eq]

/-- Settles O2: a due event joins the queue, and else a millisecond passes, with or without a whole second. -/
theorem anEmptyQueueLetsTimePass : Obligations.AnEmptyQueueLetsTimePass := by
  intro s empty
  have idles : step s = .next s.idle := by rw [step, empty]
  refine ⟨fun stopped => ?_, fun running some_due => ?_, fun e => ?_, fun running calm => ?_⟩
  · rw [idles, State.idle, if_neg (ne_true_of_eq_false stopped)]
  · refine ⟨s.due[s.chosen]'(State.chosen_lt some_due), List.getElem_mem _, ?_⟩
    rw [idles, State.idle, if_pos running, List.getElem?_eq_getElem (State.chosen_lt some_due)]
    dsimp only
    rw [State.raise, empty]
    rfl
  · rw [s.mem_due, s.mem_immediate, Exchange.mem_due, s.startupOver_iff, s.settleOver_iff, s.onTimeOver_iff,
      s.store.canStart_iff, s.store.clearDone_iff]
    simp only [or_assoc]
    rfl
  · have passes : s.idle = s.advance := by
      rw [State.idle, if_pos running, calm]
      rfl
    have writing : (if s.store.writing.isSome then 1 else 0) = if s.store.writing = none then 0 else 1 := by
      cases h : s.store.writing <;> simp
    intro now second down aged fan g edge
    refine ⟨s.advance, idles.trans (congrArg Host.Outcome.next passes), ?_⟩
    by_cases whole : second
    · have aged_eq (n : Nat) : aged n = countDown n := if_pos whole
      have fan_eq (x : Fan) : fan x = x.tickMs.tickSecond := by
        simp only [fan, aged_eq, whole, true_and]
        rfl
      rw [State.advance_of_whole whole]
      refine ⟨?_, fun c => ?_, fun c => by cases c <;> rfl, fun f => by cases f <;> rfl, ?_, fun n => ?_, fun i => ?_, ?_,
        fun h => ?_, fun n x e h => ?_, fun x e h => ?_, fun n e b h => ?_, fun e => ?_⟩
      · rw [fan_eq, fan_eq, if_pos whole, ← writing]
        rfl
      · rw [aged_eq]
        exact Sensing.tickSecond_channel _ c
      · rw [show aged = countDown from funext aged_eq]
        rfl
      · rw [aged_eq]
        exact Bus.tickSecond_station _ n
      · rw [aged_eq]
        exact Humidity.tickSecond_source _ i
      · refine (Frost.tick_eq g).trans ?_
        simp only [whole, true_and]
        rfl
      · change s.bus.exchange.tickMs = _; rw [h]; rfl
      · change s.bus.exchange.tickMs = _; rw [h]; rfl
      · change s.bus.exchange.tickMs = _; rw [h]; rfl
      · change s.bus.exchange.tickMs = _; rw [h]; rfl
      · have agenda : s.tickMs.tickSecond.agenda =
            (s.msExpiries ++ slotStart (s.clock.ms + 1)) ++ (s.tickMs.secondExpiries ++ periodic now) := rfl
        rw [agenda, List.mem_append, List.mem_append, List.mem_append, s.mem_msExpiries, mem_slotStart,
          s.tickMs_secondExpiries, s.mem_secondExpiries, mem_periodic]
        simp only [whole, true_and, or_assoc]
        rfl
    · have aged_eq (n : Nat) : aged n = n := if_neg whole
      have fan_eq (x : Fan) : fan x = x.tickMs := by
        simp only [fan, aged_eq, whole, false_and, if_false, ite_self]
        rfl
      rw [State.advance_of_part whole]
      refine ⟨?_, fun c => ?_, fun c => rfl, fun f => rfl, ?_, fun n => ?_, fun i => ?_, ?_,
        fun h => ?_, fun n x e h => ?_, fun x e h => ?_, fun n e b h => ?_, fun e => ?_⟩
      · rw [fan_eq, fan_eq, if_neg whole, ← writing]
        rfl
      · rw [aged_eq]
        rfl
      · rw [show aged = id from funext aged_eq, Option.map_id]
        change s.demand = { s.demand with live := s.demand.live.map id }
        rw [List.map_id]
      · rw [aged_eq]
        rfl
      · rw [aged_eq]
        rfl
      · simp only [whole, false_and, if_false]
        rfl
      · change s.bus.exchange.tickMs = _; rw [h]; rfl
      · change s.bus.exchange.tickMs = _; rw [h]; rfl
      · change s.bus.exchange.tickMs = _; rw [h]; rfl
      · change s.bus.exchange.tickMs = _; rw [h]; rfl
      · have agenda : s.tickMs.agenda = s.msExpiries ++ slotStart (s.clock.ms + 1) := rfl
        rw [agenda, List.mem_append, s.mem_msExpiries, mem_slotStart]
        simp only [whole, false_and, or_false, or_assoc]

end Sys2Proof.Machine

/-! PROOFS. What the resolution gives (R89 to R99). -/

namespace Sys2Proof.Machine

variable {s : State}

/-! ### The oldest record of the preferred level -/

/-- A strict comparison of levels. -/
structure Strict (better : Nat → Nat → Bool) : Prop where
  irrefl : ∀ a, better a a = false
  trans : ∀ a b c, better a b = true → better b c = true → better a c = true
  apart : ∀ a b c, better a b = true → better c b = false → better a c = true

theorem strict_lt : Strict fun a b => decide (a < b) where
  irrefl := by simp
  trans := by simp only [decide_eq_true_eq]; omega
  apart := by simp only [decide_eq_true_eq, decide_eq_false_iff_not]; omega

theorem strict_gt : Strict fun a b => decide (b < a) where
  irrefl := by simp
  trans := by simp only [decide_eq_true_eq]; omega
  apart := by simp only [decide_eq_true_eq, decide_eq_false_iff_not]; omega

/-- R91: the record found stands before every other of its level, and none is preferred to it. -/
theorem oldestBy_spec {better : Nat → Nat → Bool} (strict : Strict better) (records : List DemandRecord) :
    (oldestBy better records = none ∧ records = []) ∨
      ∃ pre r post, oldestBy better records = some r ∧ records = pre ++ r :: post
        ∧ (∀ q ∈ pre, better r.level q.level = true) ∧ ∀ q ∈ post, better q.level r.level = false := by
  induction records using List.reverseRecOn with
  | nil => exact .inl ⟨rfl, rfl⟩
  | append_singleton xs x ih =>
    right
    have last : oldestBy better (xs ++ [x]) = match oldestBy better xs with
        | none => some x
        | some b => if better x.level b.level then some x else some b := by
      rw [oldestBy, List.foldl_append]
      rfl
    rcases ih with ⟨found, rfl⟩ | ⟨pre, r, post, found, rfl, before, after⟩
    · exact ⟨[], x, [], by rw [last, found], rfl, by simp, by simp⟩
    · simp only [found] at last
      cases preferred : better x.level r.level with
      | true =>
        rw [if_pos preferred] at last
        refine ⟨pre ++ r :: post, x, [], last, rfl, fun q mem => ?_, by simp⟩
        rcases List.mem_append.1 mem with mem | mem
        · exact strict.trans _ _ _ preferred (before q mem)
        · rcases List.mem_cons.1 mem with rfl | mem
          · exact preferred
          · exact strict.apart _ _ _ preferred (after q mem)
      | false =>
        rw [if_neg (ne_true_of_eq_false preferred)] at last
        refine ⟨pre, r, post ++ [x], last, by simp, before, fun q mem => ?_⟩
        rcases List.mem_append.1 mem with mem | mem
        · exact after q mem
        · rw [List.mem_singleton.1 mem]; exact preferred

/-- R91: the same among the records that a condition admits. -/
theorem oldestBy_filter {better : Nat → Nat → Bool} (strict : Strict better) (c : DemandRecord → Bool)
    (live : List DemandRecord) :
    (oldestBy better (live.filter c) = none ∧ ∀ r ∈ live, c r = false) ∨
      ∃ pre r post, oldestBy better (live.filter c) = some r ∧ live = pre ++ r :: post ∧ c r = true
        ∧ (∀ q ∈ pre, c q = true → better r.level q.level = true)
        ∧ ∀ q ∈ post, c q = true → better q.level r.level = false := by
  rcases oldestBy_spec strict (live.filter c) with ⟨found, empty⟩ | ⟨pre, r, post, found, split, before, after⟩
  · exact .inl ⟨found, fun r mem => by simpa using List.filter_eq_nil_iff.1 empty r mem⟩
  · obtain ⟨first, rest, rfl, rfl, rest_split⟩ := List.filter_eq_append_iff.1 split
    obtain ⟨skipped, tail, rfl, none_skipped, admitted, rfl⟩ := List.filter_eq_cons_iff.1 rest_split
    refine .inr ⟨first ++ skipped, r, tail, found, by simp, admitted, fun q mem asks => ?_,
      fun q mem asks => after q (List.mem_filter.2 ⟨mem, asks⟩)⟩
    rcases List.mem_append.1 mem with mem | mem
    · exact before q (List.mem_filter.2 ⟨mem, asks⟩)
    · exact absurd asks (none_skipped q mem)

theorem DemandRecord.asks_iff {k : Kind} {r : DemandRecord} : r.asks k = true ↔ r.kind = k ∧ r.held = false := by
  rw [DemandRecord.asks, Bool.and_eq_true, decide_eq_true_iff, Bool.not_eq_true']

/-! ### Step 1 -/

/-- R90: the hold after which no other stands governs. -/
theorem newestHold_of_last {pre post : List DemandRecord} {r : DemandRecord} (holds : r.asks .hold = true)
    (last : ∀ q ∈ post, ¬q.asks .hold = true) : newestHold (pre ++ r :: post) = some r := by
  have rest : post.filter (·.asks .hold) = [] := List.filter_eq_nil_iff.2 last
  rw [newestHold, List.filter_append, List.filter_cons_of_pos holds, rest]
  exact List.getLast?_concat

theorem newestHold_eq_none {live : List DemandRecord} (free : ∀ r ∈ live, ¬r.asks .hold = true) : newestHold live = none := by
  rw [newestHold, List.filter_eq_nil_iff.2 free]
  rfl

/-- R91: what the start level is. -/
theorem startLevel_spec (p : Params) (live : List DemandRecord) :
    ((∀ r ∈ live, r.asks .setback = false) ∧ startLevel p live = ⟨p.nat .baseLevel, .base, 0⟩) ∨
      ∃ pre r post, live = pre ++ r :: post ∧ r.asks .setback = true ∧ startLevel p live = ⟨r.level, .setback, r.handle⟩
        ∧ (∀ q ∈ pre, q.asks .setback = true → r.level < q.level)
        ∧ ∀ q ∈ post, q.asks .setback = true → r.level ≤ q.level := by
  unfold startLevel
  rw [lowest_eq]
  rcases oldestBy_filter strict_lt (·.asks .setback) live with ⟨found, free⟩ | ⟨pre, r, post, found, rfl, asks, before, after⟩
  · exact .inl ⟨free, by rw [found]⟩
  · refine .inr ⟨pre, r, post, rfl, asks, by rw [found], fun q mem h => of_decide_eq_true (before q mem h), fun q mem h => ?_⟩
    exact Nat.not_lt.1 (of_decide_eq_false (after q mem h))

/-- R91: what step 1 finds without a HOLD. -/
theorem stepDemand_of_free (p : Params) {live : List DemandRecord} (free : ∀ r ∈ live, ¬r.asks .hold = true) :
    (stepDemand p live = startLevel p live ∧ ∀ r ∈ live, r.asks .boost = true → r.level ≤ (startLevel p live).level) ∨
      ∃ pre r post, live = pre ++ r :: post ∧ r.asks .boost = true ∧ stepDemand p live = ⟨r.level, .boost, r.handle⟩
        ∧ (startLevel p live).level < r.level ∧ (∀ q ∈ pre, q.asks .boost = true → q.level < r.level)
        ∧ ∀ q ∈ post, q.asks .boost = true → q.level ≤ r.level := by
  unfold stepDemand
  rw [newestHold_eq_none free, highest_eq]
  rcases oldestBy_filter strict_gt (·.asks .boost) live with ⟨found, free⟩ | ⟨pre, r, post, found, split, asks, before, after⟩
  · refine .inl ⟨by rw [found], fun r mem h => ?_⟩
    rw [free r mem] at h
    cases h
  · simp only [found]
    have earlier : ∀ q ∈ pre, q.asks .boost = true → q.level < r.level :=
      fun q mem h => of_decide_eq_true (before q mem h)
    have later : ∀ q ∈ post, q.asks .boost = true → q.level ≤ r.level :=
      fun q mem h => Nat.not_lt.1 (of_decide_eq_false (after q mem h))
    split
    · next higher => exact .inr ⟨pre, r, post, split, asks, rfl, higher, earlier, later⟩
    · next lower =>
      refine .inl ⟨rfl, fun q mem h => ?_⟩
      rw [split, List.mem_append, List.mem_cons] at mem
      rcases mem with mem | rfl | mem
      · have := earlier q mem h; omega
      · omega
      · have := later q mem h; omega

/-! ### Steps 2 to 8 -/

theorem testBit_setOf (bs : List Bool) (i : Nat) : (setOf bs).testBit i = bs.getD i false := by
  induction bs generalizing i with
  | nil => simp [setOf]
  | cons b bs ih =>
    cases i with
    | zero => cases b <;> simp [setOf, bitAt, Nat.testBit_zero, Nat.add_mod]
    | succ i =>
      have half : (bitAt 0 b + 2 * setOf bs) / 2 = setOf bs := by
        cases b
        · simp [bitAt]
        · simp only [bitAt, if_true]; omega
      rw [setOf, Nat.testBit_succ, half, ih, List.getD_cons_succ]

/-- R98: the reasons by their bits. -/
theorem reasonSet_getLsbD {c0 c1 c2 c3 c4 c5 c6 c7 c8 : Bool} {i : Nat} (lt : i < 9) :
    (reasonSet c0 c1 c2 c3 c4 c5 c6 c7 c8).getLsbD i = [c0, c1, c2, c3, c4, c5, c6, c7, c8].getD i false := by
  rw [reasonSet, BitVec.getLsbD_ofNat, testBit_setOf]
  simp [lt]

/-- R92. -/
theorem stepLimits_eq (p : Params) (a : Asked) :
    stepLimits p a = if a.source = .hold ∧ a.level = 0 then 0
      else min (p.nat .maxLevel) (max (min (p.nat .minLevel) (p.nat .maxLevel)) a.level) := by
  unfold stepLimits
  rw [clampNat_eq_min_max (by omega)]
  split
  · next h => exact h.2
  · rfl

theorem Filters.missing_iff (f : Filters) : f.missing = true ↔ f.supply = none ∨ f.extract = none := by
  rw [Filters.missing, Bool.or_eq_true, Option.isNone_iff_eq_none, Option.isNone_iff_eq_none]

theorem Filters.anyIn_iff (f : Filters) (x : FilterState) : f.anyIn x = true ↔ ∃ i r, f.slot i = some r ∧ r.state = x := by
  simp only [Filters.anyIn, Bool.or_eq_true, Option.any_eq_true, decide_eq_true_eq]
  constructor
  · rintro (⟨r, held, state⟩ | ⟨r, held, state⟩)
    · exact ⟨.supply, r, held, state⟩
    · exact ⟨.extract, r, held, state⟩
  · rintro ⟨i, r, held, state⟩
    cases i
    · exact .inl ⟨r, held, state⟩
    · exact .inr ⟨r, held, state⟩

theorem State.zeroTargets_iff (s : State) :
    s.zeroTargets = true ↔ s.resolver.mode = .startup ∨ s.resolver.mode = .standby ∨ s.frost.stage = .stop := by
  have stopped : s.resolver.mode.stopped = true ↔ s.resolver.mode = .startup ∨ s.resolver.mode = .standby := by
    cases s.resolver.mode <;> decide
  rw [State.zeroTargets, Bool.or_eq_true, stopped, decide_eq_true_iff, or_assoc]

section
variable (moves : ¬s.zeroTargets = true)
include moves

theorem resolve_asked : (resolve s).source = (stepDemand s.params s.demand.live).source
    ∧ (resolve s).handle = (stepDemand s.params s.demand.live).handle := by
  unfold resolve
  rw [if_neg moves]
  exact ⟨rfl, rfl⟩

theorem resolve_level : (resolve s).d = stepOverdue s.params s.filters
    (stepMissing s.params s.filters (stepLimits s.params (stepDemand s.params s.demand.live))) := by
  unfold resolve
  rw [if_neg moves]

theorem resolve_base : (resolve s).s0 = roundDiv ((resolve s).d * s.params.nat .nominalFlow) 100
    ∧ (resolve s).e0 = roundDiv ((resolve s).s0 * s.params.nat .extractRatio) 100 := by
  unfold resolve
  rw [if_neg moves]
  exact ⟨rfl, rfl⟩

theorem resolve_targets : ((resolve s).s1, (resolve s).e1) =
    stepAvailability s.drive.sup.state.available s.drive.ext.state.available (allowance s.params s.frost)
      (stepFrost s.params s.frost (resolve s).s0)
      (stepBalance (allowance s.params s.frost) (stepFrost s.params s.frost (resolve s).s0) (resolve s).e0) := by
  unfold resolve
  rw [if_neg moves]

theorem resolve_preheat : (resolve s).preheat = if (resolve s).s1 = 0 then 0 else s.frost.preheat := by
  unfold resolve
  rw [if_neg moves]

theorem resolve_reasons :
    let asked := stepDemand s.params s.demand.live
    let limited := stepLimits s.params asked
    let capped := stepMissing s.params s.filters limited
    let supply := stepFrost s.params s.frost (resolve s).s0
    (resolve s).reasons = reasonSet (asked.level < limited) (limited < asked.level) (capped < limited) ((resolve s).d < capped)
      (!s.frost.windows.reduce && s.frost.stage.limits && supply < (resolve s).s0) s.frost.windows.reduce
      (stepBalance (allowance s.params s.frost) supply (resolve s).e0 != (resolve s).e0)
      (!s.drive.sup.state.available) (!s.drive.ext.state.available) := by
  unfold resolve
  rw [if_neg moves]

end

theorem resolve_allowance (s : State) : (resolve s).a =
    if s.frost.windows.reduce = true then s.params.nat .defrostAllowance else s.params.nat .imbalanceLimit := by
  unfold resolve
  split <;> rfl

/-- R27: the record is live, ACTIVE and of a kind. -/
abbrev State.Active (s : State) (k : Kind) (r : DemandRecord) : Prop := r ∈ s.demand.live ∧ r.kind = k ∧ r.held = false

theorem State.active_iff {k : Kind} {r : DemandRecord} (mem : r ∈ s.demand.live) : r.asks k = true ↔ s.Active k r :=
  DemandRecord.asks_iff.trans (and_iff_right mem).symm

/-- R91: the start level among the ACTIVE records. -/
structure State.StartsAt (s : State) (start : Asked) : Prop where
  base : (∀ r, ¬s.Active .setback r) → start.level = s.params.nat .baseLevel
  smallest : ∀ r, s.Active .setback r → start.level ≤ r.level ∧ ∃ q, s.Active .setback q ∧ q.level = start.level
  source : start.source = .setback ∧ (∃ r, s.Active .setback r) ∨ start.source = .base ∧ ∀ r, ¬s.Active .setback r
  oldest : start.source = .setback → ∃ pre r post, s.demand.live = pre ++ r :: post ∧ s.Active .setback r
    ∧ r.level = start.level ∧ (∀ q ∈ pre, s.Active .setback q → q.level ≠ start.level) ∧ start.handle = r.handle
  unnamed : start.source = .base → start.handle = 0

theorem State.startLevel_startsAt (s : State) : s.StartsAt (startLevel s.params s.demand.live) := by
  rcases startLevel_spec s.params s.demand.live with ⟨free, start⟩ | ⟨pre, r, post, split, asks, start, before, after⟩
  · have absent (r : DemandRecord) : ¬s.Active .setback r := fun active => by
      have := (State.active_iff active.1).2 active
      rw [free r active.1] at this
      cases this
    rw [start]
    exact ⟨fun _ => rfl, fun r active => absurd active (absent r), .inr ⟨rfl, absent⟩, fun h => (by cases h),
      fun _ => rfl⟩
  · have mem : r ∈ s.demand.live := by rw [split]; exact List.mem_append_right _ List.mem_cons_self
    have active := (State.active_iff mem).1 asks
    rw [start]
    refine ⟨fun free => absurd active (free r), fun q other => ⟨?_, r, active, rfl⟩, .inl ⟨rfl, r, active⟩,
      fun _ => ⟨pre, r, post, split, active, rfl, fun q mem other => ?_, rfl⟩, fun h => (by cases h)⟩
    · have asked := (State.active_iff other.1).2 other
      have place := other.1
      rw [split, List.mem_append, List.mem_cons] at place
      rcases place with place | rfl | place
      · exact (before q place asked).le
      · exact le_rfl
      · exact after q place asked
    · exact (before q mem ((State.active_iff other.1).2 other)).ne'

/-- R91: the level, source and handle found without a HOLD, among the records as the statement names them. -/
theorem demand_of_free {v : View} (source : v.source = (stepDemand s.params s.demand.live).source)
    (handle : v.handle = (stepDemand s.params s.demand.live).handle)
    (free : ∀ r ∈ s.demand.live, ¬r.asks .hold = true) :
    let active (k : Kind) (r : DemandRecord) := r ∈ s.demand.live ∧ r.kind = k ∧ r.held = false
    let asked := (stepDemand s.params s.demand.live).level
    ∃ start : Nat,
      ((∀ r, ¬active .setback r) → start = s.params.nat .baseLevel)
      ∧ (∀ r, active .setback r → start ≤ r.level ∧ ∃ q, active .setback q ∧ q.level = start)
      ∧ start ≤ asked ∧ (∀ r, active .boost r → r.level ≤ asked)
      ∧ (asked = start ∨ ∃ r, active .boost r ∧ r.level = asked)
      ∧ (v.source = .boost ↔ start < asked)
      ∧ (start < asked → ∃ pre r post, s.demand.live = pre ++ r :: post ∧ active .boost r ∧ r.level = asked
          ∧ (∀ q ∈ pre, active .boost q → q.level ≠ asked) ∧ v.handle = r.handle)
      ∧ (v.source = .setback ↔ asked = start ∧ ∃ r, active .setback r)
      ∧ (v.source = .setback → ∃ pre r post, s.demand.live = pre ++ r :: post ∧ active .setback r
          ∧ r.level = start ∧ (∀ q ∈ pre, active .setback q → q.level ≠ start) ∧ v.handle = r.handle)
      ∧ (v.source = .base ↔ asked = start ∧ ∀ r, ¬active .setback r) ∧ (v.source = .base → v.handle = 0) := by
  intro active asked
  obtain ⟨base, smallest, start_source, oldest, unnamed⟩ := s.startLevel_startsAt
  refine ⟨(startLevel s.params s.demand.live).level, base, smallest, ?_⟩
  rcases stepDemand_of_free s.params free with ⟨found, none_higher⟩ | ⟨pre, r, post, split, asks, found, higher, before, after⟩
  · have level : asked = (startLevel s.params s.demand.live).level := congrArg Asked.level found
    rw [found] at source handle
    rw [source, handle, level]
    have boosts : ∀ r, active .boost r → r.level ≤ (startLevel s.params s.demand.live).level :=
      fun r other => none_higher r other.1 ((State.active_iff other.1).2 other)
    refine ⟨le_rfl, boosts, .inl rfl, ?_, fun h => absurd h (lt_irrefl _), ?_, oldest, ?_, unnamed⟩
    all_goals rcases start_source with ⟨is_setback, some_setback⟩ | ⟨is_base, no_setback⟩
    · rw [is_setback]; exact ⟨fun h => (by cases h), fun h => absurd h (lt_irrefl _)⟩
    · rw [is_base]; exact ⟨fun h => (by cases h), fun h => absurd h (lt_irrefl _)⟩
    · exact ⟨fun _ => ⟨rfl, some_setback⟩, fun _ => is_setback⟩
    · rw [is_base]; exact ⟨fun h => (by cases h), fun ⟨_, r, h⟩ => absurd h (no_setback r)⟩
    · rw [is_setback]
      obtain ⟨r, h⟩ := some_setback
      exact ⟨fun h => (by cases h), fun ⟨_, none_active⟩ => absurd h (none_active r)⟩
    · exact ⟨fun _ => ⟨rfl, no_setback⟩, fun _ => is_base⟩
  · have level : asked = r.level := congrArg Asked.level found
    have mem : r ∈ s.demand.live := by rw [split]; exact List.mem_append_right _ List.mem_cons_self
    have boosted := (State.active_iff mem).1 asks
    rw [found] at source handle
    rw [source, handle, level]
    refine ⟨higher.le, fun q other => ?_, .inr ⟨r, boosted, rfl⟩, ⟨fun _ => higher, fun _ => rfl⟩,
      fun _ => ⟨pre, r, post, split, boosted, rfl, fun q place other => ?_, rfl⟩,
      ⟨fun h => (by cases h), fun h => absurd h.1 higher.ne'⟩, fun h => (by cases h),
      ⟨fun h => (by cases h), fun h => absurd h.1 higher.ne'⟩, fun h => (by cases h)⟩
    · have asked := (State.active_iff other.1).2 other
      have place := other.1
      rw [split, List.mem_append, List.mem_cons] at place
      rcases place with place | rfl | place
      · exact (before q place asked).le
      · exact le_rfl
      · exact after q place asked
    · exact (before q place ((State.active_iff other.1).2 other)).ne

/-- Settles O46: the view step by step, each from the lemma of its step. -/
theorem resolutionIsBalancedAndCapped : Obligations.ResolutionIsBalancedAndCapped := by
  intro s p v active stopped out reduce limits missing overdue
  have zero : s.zeroTargets = true ↔ stopped := s.zeroTargets_iff
  have width : v.a = if reduce then p.nat .defrostAllowance else p.nat .imbalanceLimit := resolve_allowance s
  refine ⟨resolve_balanced s, width, fun h => ?_, fun h => ?_⟩
  · have still : v = .zero (allowance s.params s.frost) := if_pos (zero.2 h)
    rw [still]
    rfl
  have moves : ¬s.zeroTargets = true := mt zero.1 h
  obtain ⟨source, handle⟩ := resolve_asked moves
  obtain ⟨s0, e0⟩ := resolve_base moves
  have reasons := resolve_reasons moves
  have level := resolve_level moves
  have targets := resolve_targets moves
  have asks (k : Kind) (r : DemandRecord) (mem : r ∈ s.demand.live) : r.asks k = true ↔ active k r :=
    DemandRecord.asks_iff.trans (and_iff_right mem).symm
  refine ⟨(stepDemand s.params s.demand.live).level, fun pre r post split kind unheld last => ?hold, fun free => ?free,
    ?limits, s0, e0, ?targets, resolve_preheat moves, ?reduce, ?sup, ?ext⟩
  case hold =>
    have last : ∀ q ∈ post, ¬q.asks .hold = true := fun q mem asked =>
      last q mem ((asks .hold q (by rw [split]; exact List.mem_append_right _ (List.mem_cons_of_mem _ mem))).1 asked)
    have found : newestHold s.demand.live = some r := by
      rw [split]
      exact newestHold_of_last (DemandRecord.asks_iff.2 ⟨kind, unheld⟩) last
    have asked : stepDemand s.params s.demand.live = ⟨r.level, .hold, r.handle⟩ := by rw [stepDemand, found]
    rw [source, handle, asked]
    exact ⟨rfl, rfl, rfl⟩
  case free =>
    exact demand_of_free source handle fun r mem asked => free r ((asks .hold r mem).1 asked)
  case limits =>
    intro limited capped
    have limits_eq : stepLimits s.params (stepDemand s.params s.demand.live) = limited := by
      rw [stepLimits_eq, ← source]
    have caps_eq : stepMissing s.params s.filters limited = capped :=
      if_congr s.filters.missing_iff rfl rfl
    rw [limits_eq, caps_eq] at level
    have reason := reasons
    dsimp only at reason
    rw [limits_eq, caps_eq] at reason
    refine ⟨fun h => level.trans (if_pos ((s.filters.anyIn_iff _).2 h)),
      fun h => level.trans (if_neg (mt (s.filters.anyIn_iff _).1 h)), ?_, ?_, ?_, ?_⟩
    all_goals
      rw [show v.reasons = _ from reason, reasonSet_getLsbD (by decide)]
      exact decide_eq_true_iff
  case targets =>
    intro supply extract
    have supply_eq : stepFrost s.params s.frost (resolve s).s0 = supply := by
      refine if_congr Iff.rfl rfl (if_congr Stage.limits_iff rfl rfl)
    have width_eq : allowance s.params s.frost = v.a := width.symm
    have extract_eq : stepBalance (allowance s.params s.frost) supply (resolve s).e0 = extract := by
      rw [width_eq, stepBalance, clampNat_eq_min_max (by omega)]
    rw [supply_eq, extract_eq, width_eq] at targets
    dsimp only at reasons
    rw [supply_eq, extract_eq] at reasons
    have sup : s.drive.sup.state.available = true ↔ ¬out .sup := FanState.available_iff _
    have ext : s.drive.ext.state.available = true ↔ ¬out .ext := FanState.available_iff _
    refine ⟨fun a b => ?_, fun a b => ?_, fun a b => ?_, fun a b => ?_, ?_, ?_⟩
    · rw [sup.2 a, ext.2 b] at targets
      exact Prod.mk.inj targets
    · rw [Bool.eq_false_iff.2 (mt sup.1 (not_not.2 a)), ext.2 b] at targets
      exact Prod.mk.inj targets
    · rw [sup.2 a, Bool.eq_false_iff.2 (mt ext.1 (not_not.2 b))] at targets
      exact Prod.mk.inj targets
    · rw [Bool.eq_false_iff.2 (mt sup.1 (not_not.2 a)), Bool.eq_false_iff.2 (mt ext.1 (not_not.2 b))] at targets
      obtain ⟨s1, e1⟩ := Prod.mk.inj targets
      exact ⟨s1.trans (Nat.zero_min _), e1⟩
    · rw [show v.reasons = _ from reasons, reasonSet_getLsbD (by decide)]
      change (!s.frost.windows.reduce && s.frost.stage.limits && decide (supply < v.s0)) = true ↔ _
      rw [Bool.and_eq_true, Bool.and_eq_true, decide_eq_true_iff, Bool.not_eq_true', ← Bool.not_eq_true, Stage.limits_iff,
        and_assoc]
    · rw [show v.reasons = _ from reasons, reasonSet_getLsbD (by decide)]
      exact bne_iff_ne
  case reduce =>
    rw [show v.reasons = _ from reasons, reasonSet_getLsbD (by decide)]
    exact Iff.rfl
  case sup =>
    rw [show v.reasons = _ from reasons, reasonSet_getLsbD (by decide)]
    change (!s.drive.sup.state.available) = true ↔ _
    rw [Bool.not_eq_true', ← Bool.not_eq_true, FanState.available_iff, not_not]
    exact Iff.rfl
  case ext =>
    rw [show v.reasons = _ from reasons, reasonSet_getLsbD (by decide)]
    change (!s.drive.ext.state.available) = true ↔ _
    rw [Bool.not_eq_true', ← Bool.not_eq_true, FanState.available_iff, not_not]
    exact Iff.rfl

end Sys2Proof.Machine

/-! PROOFS. The requests of the pressure channel: the gates (R132), the grants (R133), the request timers (R136 to R138) and
the host's measurements (R140, R141). -/

namespace Sys2Proof.Machine

variable {s : State}

/-! ### Gates -/

theorem Stage.calm_iff (x : Stage) : x.calm = true ↔ x = .clear ∨ x = .watch := by cases x <;> decide

theorem State.gateOpen_frost_iff (s : State) :
    s.gateOpen .frost = true ↔ (s.drive.fan .ext).state = .running
      ∧ (s.frost.stage = .cycle → s.frost.windows.gate = true) ∧ (s.frost.stage ≠ .cycle → s.drive.steady = true) := by
  change ((if s.frost.stage = .cycle then s.frost.windows.gate else s.drive.steady)
    && decide (s.drive.ext.state = .running)) = true ↔ _
  rw [Bool.and_eq_true, decide_eq_true_iff, and_comm]
  refine and_congr_right fun _ => ?_
  split
  · next cycles => exact ⟨fun h => ⟨fun _ => h, fun other => absurd cycles other⟩, fun h => h.1 cycles⟩
  · next other => exact ⟨fun h => ⟨fun cycles => absurd cycles other, fun _ => h⟩, fun h => h.2 other⟩

theorem State.gateOpen_trim_iff (s : State) :
    s.gateOpen .trim = true ↔ s.drive.steady = true ∧ (s.drive.fan .sup).state = .running
      ∧ s.frost.windows.reduce = false := by
  change (s.drive.steady && decide (s.drive.sup.state = .running) && !s.frost.windows.reduce) = true ↔ _
  rw [Bool.and_eq_true, Bool.and_eq_true, decide_eq_true_iff, Bool.not_eq_true', and_assoc]
  rfl

theorem State.gateOpen_filter_iff (s : State) :
    s.gateOpen .filter = true ↔ s.drive.steady = true ∧ (s.drive.fan .sup).state = .running
      ∧ (s.drive.fan .ext).state = .running ∧ (s.frost.stage = .clear ∨ s.frost.stage = .watch) := by
  change (s.drive.steady && decide (s.drive.sup.state = .running) && decide (s.drive.ext.state = .running)
    && s.frost.stage.calm) = true ↔ _
  rw [Bool.and_eq_true, Bool.and_eq_true, Bool.and_eq_true, decide_eq_true_iff, decide_eq_true_iff, Stage.calm_iff,
    and_assoc, and_assoc]
  rfl

theorem State.eligible_iff (s : State) (x : Requester) :
    s.eligible x = true ↔ (∃ q, s.pressure.request x = some q ∧ q.granted = false) ∧ s.gateOpen x = true := by
  rw [State.eligible, Bool.and_eq_true, Option.any_eq_true]
  simp only [Bool.not_eq_true']

/-! ### Grants -/

/-- R133: where a requester is eligible, the grant goes to one. -/
theorem State.exists_grantGoesTo {x : Requester} (eligible : s.eligible x = true) : ∃ y, s.GrantGoesTo y := by
  by_cases twice : s.pressure.history = [.frost, .frost]
  · by_cases trim : s.eligible .trim = true
    · exact ⟨.trim, trim, fun first => absurd twice first, fun _ => ⟨by simp, by simp⟩⟩
    by_cases link : s.eligible .link = true
    · exact ⟨.link, link, fun first => absurd twice first, fun _ => ⟨by simp [trim], by simp⟩⟩
    by_cases filter : s.eligible .filter = true
    · exact ⟨.filter, filter, fun first => absurd twice first, fun _ => ⟨by simp [trim, link], by simp⟩⟩
    have others : ∀ y, y ≠ .frost → s.eligible y = false := fun y apart => by
      cases y
      · exact absurd rfl apart
      · exact Bool.eq_false_iff.2 trim
      · exact Bool.eq_false_iff.2 filter
      · exact Bool.eq_false_iff.2 link
    have frost : x = .frost := by
      by_contra apart
      rw [others x apart] at eligible
      cases eligible
    exact ⟨.frost, frost ▸ eligible, fun first => absurd twice first, fun _ => ⟨by simp, fun _ => others⟩⟩
  · by_cases frost : s.eligible .frost = true
    · exact ⟨.frost, frost, fun _ => by simp, fun h => absurd h twice⟩
    by_cases trim : s.eligible .trim = true
    · exact ⟨.trim, trim, fun _ => by simp [frost], fun h => absurd h twice⟩
    by_cases link : s.eligible .link = true
    · exact ⟨.link, link, fun _ => by simp [frost, trim], fun h => absurd h twice⟩
    by_cases filter : s.eligible .filter = true
    · exact ⟨.filter, filter, fun _ => by simp [frost, trim, link], fun h => absurd h twice⟩
    · cases x <;> contradiction

/-- R133: a grant is a measurement in flight for its requester. -/
theorem State.GrantedTo.flight {q : Pressure} (granted : s.GrantedTo q) {x : Requester} (goes : s.GrantGoesTo x) :
    ∃ r, s.pressure.request x = some r ∧ s.GrantsTo x r q
      ∧ q.phase.flight = some ⟨x, r.tap, r.slot, 0, 0, false⟩ := by
  obtain ⟨⟨r, filed, -⟩, -⟩ := (s.eligible_iff x).1 goes.1
  have grants := granted.2 x r goes filed
  refine ⟨r, filed, grants, ?_⟩
  rw [grants.2.2.2.2.1]
  split <;> rfl

/-! ### Request timers -/

/-- R133: what a settled channel that is FREE has granted, as the order and its exception name it. -/
theorem State.ChannelSettledTo.grants {r : Pressure} (settled : s.ChannelSettledTo r) (free : s.pressure.phase = .free) :
    let before : Requester → List Requester
      | .frost => [] | .trim => [.frost] | .link => [.frost, .trim] | .filter => [.frost, .trim, .link]
    (∀ x, s.eligible x = true → (∀ y ∈ before x, s.eligible y = false) → s.pressure.history ≠ [.frost, .frost] →
      ∃ f, r.phase.flight = some f ∧ f.requester = x)
    ∧ (∀ x, s.eligible x = true → x ≠ .frost → (∀ y ∈ before x, y ≠ .frost → s.eligible y = false) →
      s.pressure.history = [.frost, .frost] → ∃ f, r.phase.flight = some f ∧ f.requester = x)
    ∧ (s.eligible .frost = true → (∀ y, y ≠ .frost → s.eligible y = false) →
      ∃ f, r.phase.flight = some f ∧ f.requester = .frost)
    ∧ ((∀ x, s.eligible x = false) → r = s.pressure) := by
  intro before
  have granted := settled.2.1 free
  have flies {x : Requester} (goes : s.GrantGoesTo x) : ∃ f, r.phase.flight = some f ∧ f.requester = x := by
    obtain ⟨q, -, -, flight⟩ := granted.flight goes
    exact ⟨_, flight, rfl⟩
  refine ⟨fun x eligible first once => flies ⟨eligible, fun _ => first, fun twice => absurd twice once⟩,
    fun x eligible other first twice => flies ⟨eligible, fun once => absurd twice once, fun _ => ⟨fun _ => first,
      fun h => absurd h other⟩⟩,
    fun eligible alone => flies ⟨eligible, fun _ y mem => (by cases mem), fun _ => ⟨fun h => absurd rfl h, fun _ => alone⟩⟩,
    granted.1⟩

/-- R137: the slot that the statement names is the one chosen. -/
theorem chooseSlot_eq {f : Filters} {last : Option FilterSlot} {i : FilterSlot} (fitted : (f.slot i).isSome = true)
    (turn : ∀ j, j ≠ i → f.slot j = none ∨ last = some j ∨ (last = none ∧ i = .supply)) : chooseSlot f last = some i := by
  obtain ⟨r, held⟩ := Option.isSome_iff_exists.1 fitted
  cases i with
  | supply =>
    have held : f.supply = some r := held
    have next : f.extract = none ∨ last ≠ some .supply := by
      rcases turn .extract (by decide) with empty | named | ⟨unnamed, -⟩
      · exact .inl empty
      · exact .inr (by rw [named]; decide)
      · exact .inr (by rw [unnamed]; decide)
    rw [chooseSlot, held]
    rcases next with empty | named
    · rw [empty]
    · cases f.extract with
      | none => rfl
      | some r => exact if_neg named
  | extract =>
    have held : f.extract = some r := held
    have next : f.supply = none ∨ last = some .supply := by
      rcases turn .supply (by decide) with empty | named | ⟨-, h⟩
      · exact .inl empty
      · exact .inr named
      · cases h
    rw [chooseSlot, held]
    rcases next with empty | named
    · rw [empty]
    · cases f.supply with
      | none => rfl
      | some r => exact if_pos named

theorem chooseSlot_none {f : Filters} (empty : ∀ i, f.slot i = none) (last : Option FilterSlot) :
    chooseSlot f last = none := by
  rw [chooseSlot, show f.supply = none from empty .supply, show f.extract = none from empty .extract]

/-- R133: filing into an empty slot, and into one that is taken. -/
theorem Pressure.file_frost_match (p : Pressure) (x : Tap) (slot : Option FilterSlot) :
    p.file .frost x slot =
      { p with frost := match p.frost with | some q => some q | none => some ⟨x, slot, false⟩ } := by
  unfold Pressure.file
  cases filed : p.frost with
  | none => simp only [Pressure.request, filed]; rfl
  | some q => simp only [Pressure.request, filed]; cases p; cases filed; rfl

theorem Pressure.file_trim_match (p : Pressure) (x : Tap) (slot : Option FilterSlot) :
    p.file .trim x slot =
      { p with trim := match p.trim with | some q => some q | none => some ⟨x, slot, false⟩ } := by
  unfold Pressure.file
  cases filed : p.trim with
  | none => simp only [Pressure.request, filed]; rfl
  | some q => simp only [Pressure.request, filed]; cases p; cases filed; rfl

section
variable (running : s.running = true)
include running

theorem exec_trimTimerExpiry_of_stopped (stopped : s.pressure.trimTimer = none) : exec .trimTimerExpiry s = .next s := by
  change execTrimTimerExpiry s = _
  rw [execTrimTimerExpiry, partEvent_of_running running, stopped]
  rfl

theorem exec_trimTimerExpiry_of_running (runs : s.pressure.trimTimer ≠ none) :
    exec .trimTimerExpiry s =
      .next (s.setPressure { s.pressure.file .trim .flow none with trimTimer := none }).channelTail := by
  change execTrimTimerExpiry s = _
  rw [execTrimTimerExpiry, partEvent_of_running running, if_pos (Option.isSome_iff_ne_none.2 runs)]

theorem exec_frostTimerExpiry_of_stopped (stopped : s.pressure.frostTimer = none) : exec .frostTimerExpiry s = .next s := by
  change execFrostTimerExpiry s = _
  rw [execFrostTimerExpiry, partEvent_of_running running, stopped]
  rfl

theorem exec_frostTimerExpiry_of_running (runs : s.pressure.frostTimer ≠ none) :
    exec .frostTimerExpiry s =
      .next (s.setPressure { s.pressure.file .frost .exch none with frostTimer := none }).channelTail := by
  change execFrostTimerExpiry s = _
  rw [execFrostTimerExpiry, partEvent_of_running running, if_pos (Option.isSome_iff_ne_none.2 runs)]

theorem exec_filterTimerExpiry_of_stopped (stopped : s.pressure.filterTimer = none ∨ s.pressure.filter ≠ none) :
    exec .filterTimerExpiry s = .next s := by
  change execFilterTimerExpiry s = _
  rw [execFilterTimerExpiry, partEvent_of_running running, if_neg]
  rw [Bool.and_eq_true, Option.isSome_iff_ne_none, Option.isNone_iff_eq_none]
  exact fun ⟨runs, empty⟩ => stopped.elim runs (fun h => h empty)

theorem exec_filterTimerExpiry_of_running (runs : s.pressure.filterTimer ≠ none) (empty : s.pressure.filter = none) :
    exec .filterTimerExpiry s = .next s.fileFilter := by
  change execFilterTimerExpiry s = _
  rw [execFilterTimerExpiry, partEvent_of_running running, if_pos]
  rw [Bool.and_eq_true, Option.isSome_iff_ne_none, Option.isNone_iff_eq_none]
  exact ⟨runs, empty⟩

end

/-- Settles O51: the gates by `State.gateOpen`, and each timer's row as a channel that settles. -/
theorem requestTimersFileTheirRequests : Obligations.RequestTimersFileTheirRequests := by
  intro s p runs
  refine ⟨s.gateOpen_frost_iff, s.gateOpen_trim_iff, s.gateOpen_filter_iff, rfl, s.eligible_iff, fun running => ?_⟩
  intro ends filed
  have settles {q : Pressure} {c : Instr} (row : exec c s = .next (State.channelTail { s with pressure := q })) :
      ends q c := by
    obtain ⟨r, tail, settled⟩ := State.channelTail_spec { s with pressure := q }
    exact ⟨r, row.trans (congrArg Host.Outcome.next tail), settled, fun free => settled.grants free⟩
  refine ⟨exec_trimTimerExpiry_of_stopped running, fun h => settles ?_, exec_frostTimerExpiry_of_stopped running,
    fun h => settles ?_, exec_filterTimerExpiry_of_stopped running, fun h empty => ⟨fun i fitted turn => settles ?_,
      fun unfitted => ?_⟩⟩
  · rw [exec_trimTimerExpiry_of_running running h, Pressure.file_trim_match]
    rfl
  · rw [exec_frostTimerExpiry_of_running running h, Pressure.file_frost_match]
    rfl
  · rw [exec_filterTimerExpiry_of_running running h empty, State.fileFilter, chooseSlot_eq fitted turn]
    have filed : p.file .filter i.tap (some i) = { p with filter := some ⟨i.tap, some i, false⟩ } := by
      rw [Pressure.file, show p.request .filter = none from empty]
      rfl
    dsimp only
    rw [filed]
    rfl
  · rw [exec_filterTimerExpiry_of_running running h empty, State.fileFilter, chooseSlot_none unfitted]
    rfl

/-! ### The host's measurements -/

theorem LinkState.busy_iff (x : LinkState) : x.busy = true ↔ x = .waiting ∨ x = .inProgress := by cases x <;> decide

theorem Mode.stopped_iff (x : Mode) : x.stopped = true ↔ x = .startup ∨ x = .standby := by cases x <;> decide

/-- R140: no LINK request is outstanding while the record is not busy. -/
theorem Pressure.RecordOk.link_none {p : Pressure} (ok : p.RecordOk) (idle : ¬p.record.state.busy = true) : p.link = none := by
  rw [LinkState.busy_iff, not_or] at idle
  cases filed : p.link with
  | none => rfl
  | some q =>
    cases granted : q.granted with
    | false => exact absurd (ok.1.2 ⟨q, filed, granted⟩) idle.1
    | true => exact absurd (ok.2.1.2 ⟨q, filed, granted⟩) idle.2

/-- R133: a grant where the channel is FREE, and none where it is not. -/
theorem State.grant_cases (s : State) :
    ∃ q, s.grant = { s with pressure := q } ∧ s.pressure.FollowedBy q
      ∧ (s.pressure.phase ≠ .free → q = s.pressure) ∧ (s.pressure.phase = .free → s.GrantedTo q) := by
  obtain ⟨q, granted, followed⟩ := s.grant_spec
  refine ⟨q, granted, followed, fun busy => ?_, fun free => ?_⟩
  · have flying : ∃ f, s.pressure.phase.flight = some f := by
      cases phase : s.pressure.phase with
      | free => exact absurd phase busy
      | select f => exact ⟨f, rfl⟩
      | sample f => exact ⟨f, rfl⟩
    obtain ⟨f, flight⟩ := flying
    have := s.grant_of_busy flight
    rw [granted] at this
    exact congrArg State.pressure this
  · have := State.grant_grantedTo free
    rwa [granted] at this

/-- A grant reads no notice. -/
theorem State.grant_notify (s : State) (x : Notice) : (s.notify x).grant = s.grant.notify x := by
  cases phase : s.pressure.phase with
  | free =>
    have granted : s.nextGrant = (s.notify x).nextGrant := rfl
    simp only [State.grant, State.notify_pressure, phase, ← granted]
    cases s.nextGrant with
    | none => rfl
    | some r =>
      dsimp only
      cases s.pressure.request r <;> rfl
  | select f => rw [State.grant_of_busy (s := s.notify x) (f := f) (by rw [State.notify_pressure, phase]; rfl),
      State.grant_of_busy (f := f) (by rw [phase]; rfl)]
  | sample f => rw [State.grant_of_busy (s := s.notify x) (f := f) (by rw [State.notify_pressure, phase]; rfl),
      State.grant_of_busy (f := f) (by rw [phase]; rfl)]

section
variable (answering : s.answering = true)
include answering

theorem exec_measure_of_refused {tap : Byte} (refused : 4 ≤ tap.toNat) :
    exec (.measure tap) s = .next (s.respond .badValue []) := by
  change execMeasure tap s = _
  rw [execMeasure, hostCommand_of_answering answering, memberOf_eq_none (members := Tap.members) refused]
  rfl

theorem exec_measure_of_named {tap : Byte} {x : Tap} (named : memberOf Tap.members tap = some x) :
    exec (.measure tap) s = .next
      (if s.resolver.mode.stopped = true then s.respond .wrongMode []
      else if s.pressure.record.state.busy = true then s.respond .busy []
      else (s.fileLinkMeasure x).respond .ok (enumByte LinkState.members (s.fileLinkMeasure x).pressure.record.state)) := by
  change execMeasure tap s = _
  rw [execMeasure, hostCommand_of_answering answering, named]
  rfl

theorem exec_cancelMeasure :
    exec .cancelMeasure s = .next
      (if s.pressure.record.state.busy = true then ((s.abortLink .cancelled).grant).respond .ok [] else s.respond .ok []) := by
  change execCancelMeasure s = _
  rw [execCancelMeasure, hostCommand_of_answering answering]

end

/-- R140: the record after the filing is WAITING, or IN_PROGRESS where the grant went to it. -/
theorem waiting_code {x : LinkState} (state : x = .waiting ∨ x = .inProgress) :
    enumByte LinkState.members x = [if x = .waiting then 1 else 2] := by
  rcases state with rfl | rfl <;> rfl

/-- R135: the channel after the withdrawal of the LINK request. -/
theorem State.abortLink_eq (s : State) (cause : AbortCause) :
    s.abortLink cause =
      State.notify { s with pressure :=
        { s.pressure with
          link := none
          phase := if (s.pressure.phase.flight.any fun f => f.requester = .link) = true then .free else s.pressure.phase
          record := { s.pressure.record with state := .aborted, cause := some cause } } } .measure := by
  unfold State.abortLink Pressure.withdraw
  cases flight : s.pressure.phase.flight with
  | none => rfl
  | some f =>
    dsimp only
    by_cases own : f.requester = .link
    · simp only [own, if_true, Option.any_some, decide_true]
      rfl
    · simp only [own, if_false, Option.any_some, decide_false]
      rfl

/-- R133: a grant leaves the record where no LINK request waits. -/
theorem State.GrantedTo.record_of_none {q : Pressure} (granted : s.GrantedTo q) (absent : s.pressure.link = none) :
    q.record = s.pressure.record := by
  by_cases some_eligible : ∃ x, s.eligible x = true
  · obtain ⟨x, eligible⟩ := some_eligible
    obtain ⟨y, goes⟩ := State.exists_grantGoesTo eligible
    obtain ⟨r, filed, grants, -⟩ := granted.flight goes
    have other : y ≠ .link := by
      rintro rfl
      rw [show s.pressure.request .link = none from absent] at filed
      cases filed
    exact grants.2.2.2.2.2.2.2.trans (if_neg other)
  · rw [granted.1 fun x => Bool.eq_false_iff.2 fun h => some_eligible ⟨x, h⟩]

/-- Settles O49: the refusals in their order, the filing with its grant, and the withdrawal. -/
theorem measureFilesTheLinkRequest : Obligations.MeasureFilesTheLinkRequest := by
  intro s
  refine ⟨fun running => ?_, fun stopped => if_neg (ne_true_of_eq_false stopped), fun answering => ?_⟩
  · rw [State.vsel, if_pos running]
    cases s.pressure.position <;> rfl
  intro busy stopped
  have busy_iff : s.pressure.record.state.busy = true ↔ busy := LinkState.busy_iff _
  have stopped_iff : s.resolver.mode.stopped = true ↔ stopped := Mode.stopped_iff _
  refine ⟨fun tap => ⟨exec_measure_of_refused answering, fun named still => ?_, fun named runs under_way => ?_,
    fun x named runs idle ok => ?_⟩, fun idle => ?_, fun under_way => ?_⟩
  · rw [exec_measure_of_named answering (x := Tap.members[tap.toNat]) (List.getElem?_eq_getElem named),
      if_pos (stopped_iff.2 still)]
  · rw [exec_measure_of_named answering (x := Tap.members[tap.toNat]) (List.getElem?_eq_getElem named),
      if_neg (mt stopped_iff.1 runs), if_pos (busy_iff.2 under_way)]
  · intro filed
    have absent : s.pressure.link = none := ok.link_none (mt busy_iff.1 idle)
    have files : s.fileLinkMeasure x = State.grant { s with pressure := filed } := by
      rw [State.fileLinkMeasure, Pressure.file, show s.pressure.request .link = none from absent]
      rfl
    obtain ⟨q, grant, followed, kept, granted⟩ := State.grant_cases { s with pressure := filed }
    have eligible : State.eligible { s with pressure := filed } .link = true :=
      (State.eligible_iff _ _).2 ⟨⟨_, rfl, rfl⟩, rfl⟩
    obtain ⟨y, goes⟩ := State.exists_grantGoesTo eligible
    have state : q.record.state = .waiting ∨ q.record.state = .inProgress := by
      by_cases free : filed.phase = .free
      · obtain ⟨r, -, grants, -⟩ := (granted free).flight goes
        rw [grants.2.2.2.2.2.2.2]
        split
        · exact .inr rfl
        · exact .inl rfl
      · rw [kept free]
        exact .inl rfl
    refine ⟨q, followed, ?_, kept, fun free => ⟨granted free, ?_, fun no_frost no_trim => ?_⟩⟩
    · rw [exec_measure_of_named answering named, if_neg (mt stopped_iff.1 runs), if_neg (mt busy_iff.1 idle), files, grant,
        waiting_code state]
    · obtain ⟨r, -, -, flight⟩ := (granted free).flight goes
      intro still
      rw [still] at flight
      cases flight
    · have to_link : State.GrantGoesTo { s with pressure := filed } .link := by
        refine ⟨eligible, fun _ y mem => ?_, fun _ => ⟨fun _ y mem _ => ?_, fun h => (by cases h)⟩⟩
        all_goals
          rcases List.mem_cons.1 mem with rfl | mem
          · exact no_frost
          · rw [List.mem_singleton.1 mem]; exact no_trim
      obtain ⟨r, filed_eq, grants, flight⟩ := (granted free).flight to_link
      obtain rfl : (⟨x, none, false⟩ : Request) = r := Option.some.inj filed_eq
      exact ⟨_, flight, rfl, rfl, by rw [grants.2.2.2.2.2.2.2]; rfl⟩
  · rw [exec_cancelMeasure answering, if_neg (mt busy_iff.1 idle)]
  · intro freed emptied
    obtain ⟨q, grant, followed, kept, granted⟩ := State.grant_cases { s with pressure := emptied }
    refine ⟨q, followed, ?_, kept, granted, ?_⟩
    · by_cases free : emptied.phase = .free
      · exact (granted free).record_of_none rfl
      · rw [kept free]
    · rw [exec_cancelMeasure answering, if_pos (busy_iff.2 under_way), State.abortLink_eq]
      rw [show State.notify _ .measure = State.notify { s with pressure := emptied } .measure from rfl, State.grant_notify,
        grant]

end Sys2Proof.Machine

/-! PROOFS. Rounds, slots and polls of the station bus, and the indicator (R51, R53, R64). -/

namespace Sys2Proof.Machine

variable {s : State}

/-! ### Rounds and slots -/

/-- R53: the first of the six stations of which a condition holds. -/
theorem find_station {c : StationId → Bool} {n : StationId} (holds : c n = true) (first : ∀ m < n, ¬c m = true) :
    (List.finRange 6).find? c = some n := by
  refine List.find?_eq_some_iff_getElem.2 ⟨holds, n.val, by simp, by simp, fun j lt => ?_⟩
  have := first ⟨j, by omega⟩ lt
  simpa using this

theorem find_station_none {c : StationId → Bool} (free : ∀ n, ¬c n = true) : (List.finRange 6).find? c = none :=
  List.find?_eq_none.2 fun n _ => free n

theorem Station.markedIn_iff (x : Station) (st : StationState) : x.markedIn st = true ↔ x.marked = true ∧ x.state = st := by
  rw [Station.markedIn, Bool.and_eq_true, decide_eq_true_iff]

/-- R53: marked in SEEKING or LOST. -/
theorem Station.markedAway_iff (x : Station) :
    (x.markedIn .seeking || x.markedIn .lost) = true ↔ x.marked = true ∧ (x.state = .seeking ∨ x.state = .lost) := by
  rw [Bool.or_eq_true, x.markedIn_iff, x.markedIn_iff, ← and_or_left]

section
variable {b : Bus} {n : StationId}

theorem Bus.nextPoll_of_online (marked : b.stations[n].marked = true ∧ b.stations[n].state = .online)
    (first : ∀ m : StationId, m < n → ¬(b.stations[m].marked = true ∧ b.stations[m].state = .online)) :
    b.nextPoll = some n := by
  have found : (List.finRange 6).find? (fun n : StationId => b.stations[n].markedIn .online) = some n :=
    find_station ((Station.markedIn_iff _ _).2 marked) fun m lt h => first m lt ((Station.markedIn_iff _ _).1 h)
  rw [Bus.nextPoll, found]
  rfl

theorem Bus.nextPoll_of_away
    (none_online : ∀ m : StationId, ¬(b.stations[m].marked = true ∧ b.stations[m].state = .online)) :
    b.nextPoll = (List.finRange 6).find? fun n : StationId => b.stations[n].markedIn .seeking || b.stations[n].markedIn .lost := by
  have found : (List.finRange 6).find? (fun n : StationId => b.stations[n].markedIn .online) = none :=
    find_station_none fun m h => none_online m ((Station.markedIn_iff _ _).1 h)
  rw [Bus.nextPoll, found, Option.none_or]

end

/-- R53: a station's mark. -/
theorem Station.due_iff (x : Station) (now : Nat) :
    x.due now = true ↔ x.state = .online
      ∨ (x.state = .seeking ∨ x.state = .lost) ∧ ∀ r ∈ x.lastRound, r + 10 ≤ now := by
  have long : (x.lastRound.all fun r => decide (10 ≤ now - r)) = true ↔ ∀ r ∈ x.lastRound, r + 10 ≤ now := by
    rw [Option.all_eq_true]
    exact forall₂_congr fun r _ => decide_eq_true_iff.trans (by omega)
  unfold Station.due
  cases state : x.state with
  | unconfigured => simp
  | online => simp
  | seeking => simpa using long
  | lost => simpa using long

section
variable (running : s.running = true)
include running

theorem exec_pollRoundStart :
    exec .pollRoundStart s = .next { s with bus :=
      { s.bus with stations := eachStation (fun x => { x with marked := x.due s.clock.seconds }) s.bus.stations } } := by
  change execPollRoundStart s = _
  rw [execPollRoundStart, partEvent_of_running running]

theorem exec_pollSlot_of_some {n : StationId} (next : s.bus.nextPoll = some n) :
    exec .pollSlot s = .next (s.poll n) := by
  change execPollSlot s = _
  rw [execPollSlot, partEvent_of_running running, next]

theorem exec_pollSlot_of_none (next : s.bus.nextPoll = none) : exec .pollSlot s = .next s := by
  change execPollSlot s = _
  rw [execPollSlot, partEvent_of_running running, next]

theorem exec_pollEnd : exec .pollEnd s = .next (s.setExchange s.bus.exchange.endPoll) := by
  change execPollEnd s = _
  rw [execPollEnd, partEvent_of_running running]

theorem exec_reportReceived_none :
    exec (.reportReceived none) s = .next (s.setExchange s.bus.exchange.beginReply) := by
  change execReportReceived none s = _
  rw [execReportReceived, partEvent_of_running running]

end

/-- R203: the byte of an indicator. -/
theorem indicator_code (x : Indicator) :
    BitVec.ofNat 8 (codeOf Indicator.members x) =
      match x with | .off => 0 | .steady => 1 | .slowBlink => 2 | .fastBlink => 3 := by
  cases x <;> rfl

theorem State.poll_eq (s : State) (n : StationId) :
    s.poll n =
      { s with bus :=
        { stations := s.bus.stations.set n
            { s.bus.stations[n] with
              marked := false, lastRound := some s.clock.seconds, indicator := s.indicator n }
          exchange := .sending n
            (pollFrame (BitVec.ofNat 8 (n.val + 1))
              (match s.indicator n with | .off => 0 | .steady => 1 | .slowBlink => 2 | .fastBlink => 3)
              (BitVec.ofNat 8 s.resolver.view.d)) 0 } } := by
  rw [State.poll, State.pollTo, indicator_code]
  rfl

/-! ### The indicator -/

/-- R64: an own boost or a useful contribution answers the room. -/
theorem State.roomAnswered_iff (ok : s.demand.Ok) (n : StationId) :
    s.roomAnswered n = true ↔ ∃ r ∈ s.demand.live, r.held = false ∧ (r.origin = .station n
      ∨ r.origin = .humidity ∧ s.humidity.stations[n].state = .rising ∧ s.humidity.stations[n].noDrying = false) := by
  have found {o : Origin} (other : o ≠ .link) (c : DemandRecord → Bool) :
      (s.demand.byOrigin o .boost).any c = true ↔ ∃ r ∈ s.demand.live, c r = true ∧ r.origin = o := by
    rw [Option.any_eq_true]
    constructor
    · rintro ⟨r, named, holds⟩
      obtain ⟨mem, origin, -⟩ := DemandTable.byOrigin_some named
      exact ⟨r, mem, holds, origin⟩
    · rintro ⟨r, mem, holds, origin⟩
      obtain ⟨pre, post, place⟩ := DemandTable.placed mem
      exact ⟨r, DemandTable.byOrigin_at ok place origin other, holds⟩
  have own := found (o := .station n) (by nofun) (!·.held)
  have humidity := found (o := .humidity) (by nofun) (!·.held)
  rw [State.roomAnswered, Bool.or_eq_true, Bool.and_eq_true, Bool.and_eq_true, decide_eq_true_iff, Bool.not_eq_true',
    show s.demand.stationBoost n = s.demand.byOrigin (.station n) .boost from rfl,
    show s.demand.humidityRecord = s.demand.byOrigin .humidity .boost from rfl, own, humidity]
  simp only [Bool.not_eq_true']
  constructor
  · rintro (⟨r, mem, active, origin⟩ | ⟨⟨⟨r, mem, active, origin⟩, rises⟩, useful⟩)
    · exact ⟨r, mem, active, .inl origin⟩
    · exact ⟨r, mem, active, .inr ⟨origin, rises, useful⟩⟩
  · rintro ⟨r, mem, active, origin | ⟨origin, rises, useful⟩⟩
    · exact .inl ⟨r, mem, active, origin⟩
    · exact .inr ⟨⟨⟨r, mem, active, origin⟩, rises⟩, useful⟩

/-- R64: a slot that is empty, or holds a record DUE or OVERDUE. -/
theorem Filters.slow_iff (f : Filters) :
    (f.anyIn .due || f.anyIn .overdue || f.missing) = true ↔
      ∃ i : FilterSlot, ∀ r ∈ f.slot i, r.state = .due ∨ r.state = .overdue := by
  rw [Bool.or_eq_true, Bool.or_eq_true, f.anyIn_iff, f.anyIn_iff, f.missing_iff]
  constructor
  · rintro ((⟨i, r, held, state⟩ | ⟨i, r, held, state⟩) | empty | empty)
    · exact ⟨i, fun q mem => .inl (Option.some.inj (held.symm.trans mem) ▸ state)⟩
    · exact ⟨i, fun q mem => .inr (Option.some.inj (held.symm.trans mem) ▸ state)⟩
    · exact ⟨.supply, fun q mem => by rw [show f.slot .supply = none from empty] at mem; cases mem⟩
    · exact ⟨.extract, fun q mem => by rw [show f.slot .extract = none from empty] at mem; cases mem⟩
  · rintro ⟨i, state⟩
    cases held : f.slot i with
    | none => cases i; exacts [.inr (.inl held), .inr (.inr held)]
    | some r => exact .inl ((state r held).imp (fun h => ⟨i, r, held, h⟩) (fun h => ⟨i, r, held, h⟩))

/-- R64: the four indicators by their order. -/
theorem indicator_iff {fast slow steady : Prop} [Decidable fast] [Decidable slow] [Decidable steady] {x : Indicator}
    (formed : x = if fast then .fastBlink else if slow then .slowBlink else if steady then .steady else .off) :
    (x = .fastBlink ↔ fast) ∧ (x = .slowBlink ↔ ¬fast ∧ slow) ∧ (x = .steady ↔ ¬fast ∧ ¬slow ∧ steady)
      ∧ (x = .off ↔ ¬fast ∧ ¬slow ∧ ¬steady) := by
  subst formed
  split_ifs with a b c
  · simp [a]
  · simp [a, b]
  · simp [a, b, c]
  · simp [a, b, c]

/-- Settles O39: marks, slots and the course of a poll by their equations, the indicator by its order of cases. -/
theorem pollsGoOutInTheirSlots : Obligations.PollsGoOutInTheirSlots := by
  intro s running
  refine ⟨⟨_, exec_pollRoundStart running, rfl, fun n => ⟨_, Vector.getElem_ofFn _, Station.due_iff _ _⟩⟩, ?_,
    fun n frame t sending => ?_, fun frame t void => ?_, fun other => ?_, fun n t b window => ⟨fun early => ?_, fun late => ?_⟩,
    ?_, fun ok n => ?_⟩
  · intro first second
    refine ⟨fun n chosen => ?_, fun free => ?_⟩
    · have next : s.bus.nextPoll = some n := by
        rcases chosen with ⟨marked, before⟩ | ⟨none_online, away, before⟩
        · exact Bus.nextPoll_of_online marked before
        · rw [Bus.nextPoll_of_away none_online]
          exact find_station ((Station.markedAway_iff _).2 away) fun m lt h => before m lt ((Station.markedAway_iff _).1 h)
      exact (exec_pollSlot_of_some running next).trans (congrArg Host.Outcome.next (s.poll_eq n))
    · refine exec_pollSlot_of_none running ?_
      rw [Bus.nextPoll_of_away fun m => (free m).1]
      exact find_station_none fun m h => (free m).2 ((Station.markedAway_iff _).1 h)
  · rw [exec_pollEnd running, sending]
    rfl
  · rw [exec_pollEnd running, void]
    rfl
  · have kept : s.bus.exchange.endPoll = s.bus.exchange := by
      rcases other with idle | ⟨n, t, b, window⟩
      · rw [idle]; rfl
      · rw [window]; rfl
    rw [exec_pollEnd running, kept]
    rfl
  · rw [exec_reportReceived_none running, window, Exchange.beginReply, decide_eq_true early, Bool.or_true]
    rfl
  · have kept : s.bus.exchange.beginReply = s.bus.exchange := by
      rw [window, Exchange.beginReply, decide_eq_false (by omega), Bool.or_false]
    rw [exec_reportReceived_none running, kept]
    rfl
  · rw [State.sbde, running, Bool.true_and]
    cases s.bus.exchange <;> simp
  · intro fast slow steady
    have locked : (s.drive.sup.state = .locked ∨ s.drive.ext.state = .locked) ↔ ∃ f, (s.drive.fan f).state = .locked := by
      constructor
      · exact fun h => h.elim (fun h => ⟨.sup, h⟩) (fun h => ⟨.ext, h⟩)
      · rintro ⟨f, h⟩
        cases f
        · exact .inl h
        · exact .inr h
    have is_fast : (s.frost.stage = .stop ∨ s.drive.sup.state = .locked ∨ s.drive.ext.state = .locked) ↔ fast :=
      or_congr_right locked
    have is_slow := s.filters.slow_iff
    have is_steady := s.roomAnswered_iff ok n
    obtain ⟨a, b, c, d⟩ := indicator_iff (x := s.indicator n) rfl
    rw [is_fast] at a
    rw [is_fast, is_slow] at b
    rw [is_fast, is_slow, is_steady] at c d
    exact ⟨a, b, c, d⟩

end Sys2Proof.Machine

/-! PROOFS. Evaluations of the frost guard, the windows of a cycle and its judging (R149 to R161, R163, R167). -/

namespace Sys2Proof.Machine

variable {s : State} {p : Params} {oa : Option Int} {g : Frost} {m : Int}

/-! ### Orders -/

/-- R156: a clamp from 0 up and the order it gives, whatever the upper limit. -/
theorem clampInt_zero_toNat (hi x : Int) : (clampInt 0 hi x).toNat = (min hi (max 0 x)).toNat := by
  unfold clampInt
  split_ifs <;> omega

/-- R156: the reduction of a margin. -/
def Params.cutAt (p : Params) (m : Int) : Nat :=
  if p.get .preheatFitted = 1 then 0
  else (min (p.get .frostReduceMax) (max 0 (symRound (p.get .frostReduceGain * (p.get .frostLimit - m)) 10))).toNat

/-- R156: the preheat order of a margin, in the PREHEAT window or outside it. -/
def Params.warmAt (p : Params) (m : Int) (window : Bool) : Nat :=
  if ¬p.get .preheatFitted = 1 then 0
  else if window then 100
  else (min 100 (max 0 (symRound (p.get .preheatGain * (p.get .frostLimit - m)) 10))).toNat

theorem Params.preheater_iff (p : Params) : p.preheater = true ↔ p.get .preheatFitted = 1 := decide_eq_true_iff

theorem windowOrders_limitOrders (p : Params) (m : Int) (window : Bool) :
    windowOrders p window (limitOrders p m) = (p.cutAt m, p.warmAt m window) := by
  unfold windowOrders limitOrders Params.cutAt Params.warmAt
  simp only [p.preheater_iff, clampInt_zero_toNat]
  by_cases fitted : p.get .preheatFitted = 1 <;> cases window <;> simp [fitted]

/-- R156: the orders that a margin forms outside FALLBACK. -/
theorem Frost.formOrders_of_margin (normal : g.fallback = false) (margin : g.margin = some m) :
    g.formOrders p oa =
      { g with
        reduction := if g.stage = .limit ∨ g.stage = .cycle then p.cutAt m else 0
        preheat := if g.stage = .limit ∨ g.stage = .cycle then p.warmAt m (g.stage = .cycle && g.windows.preheat) else 0 } := by
  have orders : g.orders p oa =
      if g.stage = .limit ∨ g.stage = .cycle then (p.cutAt m, p.warmAt m (g.stage = .cycle && g.windows.preheat))
      else (0, 0) := by
    rw [Frost.orders, if_neg (ne_true_of_eq_false normal), margin]
    exact if_congr Stage.limits_iff (windowOrders_limitOrders p m _) rfl
  rw [Frost.formOrders, orders]
  split <;> rfl

/-- R156 and R162: formed orders are those that the guard's state forms. -/
theorem Frost.formOrders_formed (p : Params) (oa : Option Int) (g : Frost) : (g.formOrders p oa).OrdersFormed p oa := by
  unfold Frost.OrdersFormed
  intro fitted window warm stops row
  have limits : (fallbackStage p oa = .limit ∨ fallbackStage p oa = .cycle) ↔ row := by
    unfold fallbackStage
    cases oa with
    | none => simp [row, warm, stops]
    | some t =>
      simp only [row, warm, stops, decide_eq_false_iff_not]
      split_ifs <;> simp <;> omega
  have in_window : (decide (g.stage = .cycle) && g.windows.preheat) = true ↔ window := by
    rw [Bool.and_eq_true, decide_eq_true_iff]
    rfl
  refine ⟨fun fallback => ?_, fun normal no_limit no_cycle => ?_, fun m normal stage margin => ?_⟩
  · have formed := Frost.formOrders_of_fallback (g := g) fallback p oa
    rw [fallbackOrders_eq] at formed
    exact ⟨(congrArg Frost.reduction formed).trans (if_congr (and_congr_left' limits) rfl rfl),
      (congrArg Frost.preheat formed).trans
        (if_congr (and_congr_right' in_window) rfl (if_congr (and_congr_left' limits) rfl rfl))⟩
  · have free : ¬g.stage.limits = true := fun h => (Stage.limits_iff.1 h).elim no_limit no_cycle
    have none_formed : g.orders p oa = (0, 0) := by
      rw [Frost.orders, if_neg (show ¬g.fallback = true from ne_true_of_eq_false normal), if_neg free]
    exact ⟨congrArg Prod.fst none_formed, congrArg Prod.snd none_formed⟩
  · have formed := Frost.formOrders_of_margin (p := p) (oa := oa) (g := g) normal margin
    exact ⟨(congrArg Frost.reduction formed).trans (if_pos stage),
      ((congrArg Frost.preheat formed).trans (if_pos stage)).trans
        (if_congr Iff.rfl rfl (if_congr in_window rfl rfl))⟩

/-! ### Normal evaluations -/

/-- R149 and R163: the guard after the counts of an evaluation, with FALLBACK ended. -/
def Frost.counted (p : Params) (oa : Option Int) (m : Int) (g : Frost) : Frost :=
  (if g.fallback then { g with fallback := false, hold := 0, saturation := 0, ice := 0 } else g).updateCounts p oa m

/-- R163: FALLBACK ends with the counts at 0. -/
theorem Frost.fallback_ended (g : Frost) :
    (if g.fallback then { g with fallback := false, hold := 0, saturation := 0, ice := 0 } else g) =
      { g with
        fallback := false, hold := if g.fallback then 0 else g.hold
        saturation := if g.fallback then 0 else g.saturation, ice := if g.fallback then 0 else g.ice } := by
  obtain ⟨_, _, fallback, _⟩ := g
  cases fallback <;> rfl

theorem Frost.evaluate_eq (p : Params) (oa : Option Int) (m : Int) (g : Frost) :
    g.evaluate p oa m = (((g.counted p oa m).judge p oa m).formOrders p oa).keepOrders := rfl

/-- R150: the hold count. -/
theorem Frost.nextHold_eq (p : Params) (oa : Option Int) (m : Int) (g : Frost) :
    let held (c : Bool) (top : Nat) := if c then min top (g.hold + 1) else 0
    g.nextHold p oa m = match g.stage with
      | .watch => held (decide (p.get .frostWatch + 15 ≤ m)) 60
      | .limit => held (decide (p.get .frostLimit + 10 ≤ m)) 30
      | .stop => if g.reason = .cold then held (oa.any fun t => p.get .stopOa + 30 ≤ t) 180 else 0
      | .clear | .cycle => 0 := by
  intro held
  have taken (c : Bool) (top : Nat) (exit : g.exitCondition p oa m = some (c, top)) :
      g.nextHold p oa m = held c top := by
    rw [Frost.nextHold, exit]
    cases c <;> rfl
  have absent (exit : g.exitCondition p oa m = none) : g.nextHold p oa m = 0 := by rw [Frost.nextHold, exit]
  cases stage : g.stage with
  | clear => exact absent (by rw [Frost.exitCondition, stage])
  | watch => exact taken _ _ (by rw [Frost.exitCondition, stage])
  | limit => exact taken _ _ (by rw [Frost.exitCondition, stage])
  | cycle => exact absent (by rw [Frost.exitCondition, stage])
  | stop =>
    dsimp only
    by_cases cold : g.reason = .cold
    · rw [if_pos cold]
      exact taken _ _ (by simp only [Frost.exitCondition, stage, if_pos cold])
    · rw [if_neg cold]
      exact absent (by simp only [Frost.exitCondition, stage, if_neg cold])

/-- R150: the saturation count. -/
theorem Frost.nextSaturation_eq (p : Params) (m : Int) (g : Frost) :
    g.nextSaturation p m =
      if g.stage = .limit ∧ (g.priorReduction = p.nat .frostReduceMax ∨ (p.get .preheatFitted = 1 ∧ g.priorPreheat = 100)) ∧ m ≤ 0
      then min 180 (g.saturation + 1) else 0 := by
  refine if_congr ?_ rfl rfl
  simp only [Bool.and_eq_true, Frost.orderAtEnd, Bool.or_eq_true, decide_eq_true_eq, p.preheater_iff, and_assoc]

/-- R155 and R156: the entry into a stage with a margin, outside FALLBACK. -/
theorem Frost.enter_of_margin (normal : g.fallback = false) (margin : g.margin = some m) {r : Reason} (other : r ≠ .iced)
    (st : Stage) :
    g.enter p oa st r =
      { g with
        stage := st, reason := r, hold := 0, saturation := 0, ice := 0, stopTimer := 0, failed := 0
        gateResult := none, unjudged := false
        counter := if st = .cycle then 1 else 0
        latched := if st = .cycle then p.cycleTimes else g.latched
        windows := if st = .cycle then p.cycleTimes.windowsAt 1 else .closed
        reduction := if st = .limit ∨ st = .cycle then p.cutAt m else 0
        preheat := if st = .limit then p.warmAt m false
          else if st = .cycle then p.warmAt m (p.cycleTimes.windowsAt 1).preheat else 0 } := by
  rw [Frost.enter_of_not_iced other, Frost.formOrders_of_margin (by exact normal) (by exact margin)]
  cases st <;> simp [normal]

/-- R151: OA is usable and at or below STOP_OA. -/
theorem tooCold_iff (p : Params) (oa : Option Int) : tooCold p oa = true ↔ ∃ t ∈ oa, t ≤ p.get .stopOa := by
  rw [tooCold, Option.any_eq_true]
  exact exists_congr fun t => and_congr_right fun _ => decide_eq_true_iff

theorem Frost.judge_of_cold (cold : tooCold p oa = true) (other : ¬(g.stage = .stop ∧ g.reason = .cold)) :
    g.judge p oa m = if g.stage = .stop then { g.clearCounts with reason := .cold } else g.enter p oa .stop .cold := by
  refine if_pos ?_
  rw [cold, Bool.true_and, Bool.not_eq_true', ← Bool.not_eq_true, Bool.and_eq_true, decide_eq_true_iff, decide_eq_true_iff]
  exact other

theorem Frost.judge_of_own (own : tooCold p oa = true → g.stage = .stop ∧ g.reason = .cold) :
    g.judge p oa m = g.ownTransition p oa m := by
  refine if_neg fun h => ?_
  rw [Bool.and_eq_true, Bool.not_eq_true', ← Bool.not_eq_true, Bool.and_eq_true, decide_eq_true_iff, decide_eq_true_iff] at h
  exact h.2 (own h.1)

section
variable (running : s.running = true)
include running

/-- R149: in STARTUP and STANDBY an evaluation forms Tf and m alone. -/
theorem exec_frostEvaluation_of_stopped (stopped : s.resolver.mode.stopped = true) :
    exec .frostEvaluation s = .next { s with frost := s.readMargin.keepOrders } := by
  change execFrostEvaluation s = _
  rw [execFrostEvaluation, partEvent_of_running running, State.evaluateFrost, if_pos stopped]

theorem exec_frostEvaluation_of_margin (on : ¬s.resolver.mode.stopped = true) (margin : s.readMargin.margin = some m) :
    exec .frostEvaluation s = .next (s.moveFrost (s.readMargin.evaluate s.params s.frostOa m)) := by
  change execFrostEvaluation s = _
  rw [execFrostEvaluation, partEvent_of_running running, State.evaluateFrost, if_neg on, margin]

end

/-- Settles O53: the counts, then the one change of stage by the cases of `Frost.judge`, then the orders; `State.moveFrost` hands
the guard's move on. -/
theorem frostEvaluationsMoveTheStage : Obligations.FrostEvaluationsMoveTheStage := by
  intro s running p tf read g
  have tf_eq : frostReference s.sensing.dewPoint = tf := by
    simp only [tf]
    cases s.sensing.dewPoint <;> rfl
  have read_eq : s.readMargin = read (s.sensing.eha.usable.map fun t => t - tf) := by
    rw [State.readMargin, tf_eq]
  refine ⟨fun stopped => ?_, fun eha usable mode => ?_⟩
  · rw [exec_frostEvaluation_of_stopped running ((Mode.stopped_iff _).2 stopped), read_eq]
    rfl
  intro m oa cold fitted short cut hold held atEnd g1 warm enters stays becomes
  have on : ¬s.resolver.mode.stopped = true := by
    rw [Mode.stopped_iff]
    rcases mode with h | h <;> rw [h] <;> decide
  have read_some : s.readMargin = read (some m) := by rw [read_eq, usable]; rfl
  have counted : s.readMargin.counted p oa m = g1 := by
    rw [read_some, Frost.counted, Frost.fallback_ended, Frost.updateCounts, Frost.nextHold_eq, Frost.nextSaturation_eq] <;> rfl
  have moves {f : Frost} (h : (g1.judge p oa m).formOrders p oa = f) : becomes f := by
    obtain ⟨guard, handed⟩ := s.moveFrost_handedTo f.keepOrders
    refine ⟨s.moveFrost f.keepOrders, ?_, guard, ?_⟩
    · rw [exec_frostEvaluation_of_margin running on (m := m) (by rw [read_some]), Frost.evaluate_eq]
      change Host.Outcome.next (s.moveFrost (((s.readMargin.counted p oa m).judge p oa m).formOrders p oa).keepOrders) = _
      rw [counted, h]
    · rw [guard]
      exact handed
  have warm_eq : (if g.stage = .limit ∨ g.stage = .cycle then warm (g.stage = .cycle && g.windows.preheat) else 0) =
      if g.stage = .limit then warm false else if g.stage = .cycle then warm g.windows.preheat else 0 := by
    cases g.stage <;> simp
  have stay_eq : g1.formOrders p oa = stays := by
    rw [Frost.formOrders_of_margin (g := g1) rfl rfl]
    exact congrArg (fun x => { g1 with
      reduction := if g.stage = Stage.limit ∨ g.stage = Stage.cycle then cut else 0, preheat := x }) warm_eq
  have stay (h : g1.judge p oa m = g1) : becomes stays := moves (by rw [h, stay_eq])
  have enter_eq {st : Stage} {r : Reason} (other : r ≠ .iced) : g1.enter p oa st r = enters st r :=
    Frost.enter_of_margin rfl rfl other st
  have enter {st : Stage} {r : Reason} (other : r ≠ .iced) (h : g1.judge p oa m = g1.enter p oa st r) :
      becomes (enters st r) := by
    refine moves ?_
    rw [h, ← enter_eq other, Frost.enter_of_not_iced other, Frost.formOrders_formOrders]
  have is_cold : tooCold p oa = true ↔ cold := tooCold_iff p oa
  have own (h : ¬cold ∨ g.stage = .stop ∧ g.reason = .cold) : g1.judge p oa m = g1.ownTransition p oa m :=
    Frost.judge_of_own fun c => h.resolve_left (not_not.2 (is_cold.1 c))
  refine ⟨fun c other => enter (by decide) ?_, fun c stops other => moves ?_, fun stage warm => ?_, fun stage warm => ?_,
    fun stage warm => ?_, fun stage warm => stay ?_, fun stage reason => ?_, fun stage reason warm => ?_⟩
  · rw [Frost.judge_of_cold (g := g1) (is_cold.2 c) fun h => other h.1]
    exact if_neg other
  · rw [Frost.judge_of_cold (g := g1) (is_cold.2 c) fun h => other h.2, if_pos (show g1.stage = .stop from stops),
      Frost.formOrders_of_margin (g := { g1.clearCounts with reason := .cold }) rfl rfl]
    exact congrArg (fun x => { g1.clearCounts with
      reason := .cold, reduction := if g.stage = Stage.limit ∨ g.stage = Stage.cycle then cut else 0, preheat := x }) warm_eq
  · have judged := own (.inl warm)
    rw [Frost.ownTransition, show g1.stage = .clear from stage] at judged
    exact ⟨fun low => enter (by decide) (judged.trans (if_pos low)),
      fun high => stay (judged.trans (if_neg (Int.not_le.2 high)))⟩
  · have judged := own (.inl warm)
    rw [Frost.ownTransition, show g1.stage = .watch from stage] at judged
    exact ⟨fun low => enter (by decide) (judged.trans (if_pos low)),
      fun high full => enter (by decide) (judged.trans ((if_neg (Int.not_le.2 high)).trans (if_pos full))),
      fun high few => stay (judged.trans ((if_neg (Int.not_le.2 high)).trans (if_neg (Nat.not_le.2 few))))⟩
  · have judged := own (.inl warm)
    rw [Frost.ownTransition, show g1.stage = .limit from stage] at judged
    exact ⟨fun icy => enter (by decide) (judged.trans (if_pos icy)),
      fun free full => enter (by decide) (judged.trans ((if_neg (Nat.not_le.2 free)).trans (if_pos full))),
      fun free few full => enter (by decide)
        (judged.trans ((if_neg (Nat.not_le.2 free)).trans ((if_neg (Nat.not_le.2 few)).trans (if_pos full)))),
      fun free few short => stay
        (judged.trans ((if_neg (Nat.not_le.2 free)).trans ((if_neg (Nat.not_le.2 few)).trans (if_neg (Nat.not_le.2 short)))))⟩
  · rw [own (.inl warm), Frost.ownTransition, show g1.stage = .cycle from stage]
  · have judged := own (.inr ⟨stage, reason⟩)
    rw [Frost.ownTransition, show g1.stage = .stop from stage] at judged
    exact ⟨fun full => enter (by decide) (judged.trans (if_pos ⟨reason, full⟩)),
      fun few => stay (judged.trans ((if_neg fun h => Nat.not_le.2 few h.2).trans
        (if_neg fun h => absurd (reason.symm.trans h.1) (by decide))))⟩
  · have judged := own (.inl warm)
    rw [Frost.ownTransition, show g1.stage = .stop from stage] at judged
    have not_cold : ¬(g1.reason = .cold ∧ 180 ≤ g1.hold) := fun h => reason h.1
    exact ⟨fun iced late => enter (by decide) (judged.trans ((if_neg not_cold).trans (if_pos ⟨iced, late⟩))),
      fun early => stay (judged.trans ((if_neg not_cold).trans
        (if_neg fun h => early.elim (fun other => other h.1) fun few => Nat.not_le.2 few h.2)))⟩

end Sys2Proof.Machine

/-! PROOFS. The windows of a defrost cycle, its judging, and RELEARN_EXCHANGER (R157 to R161, R163, R167). -/

namespace Sys2Proof.Machine

variable {s : State} {p : Params} {oa : Option Int} {g : Frost}

/-! ### Window edges -/

/-- R158: where the windows change between two values of the counter, some value up to the second is an edge. -/
theorem CycleTimes.exists_edge {t : CycleTimes} {c n : Nat} (later : c < n) (differs : t.windowsAt n ≠ t.windowsAt c)
    (same : ∀ k, c < k → k < n → t.windowsAt k = t.windowsAt c) :
    n ∈ [t.preheatStart, t.preheatEnd, t.reduceStart, t.reduceEnd, t.gateStart, t.gateEnd] := by
  obtain ⟨k, rfl⟩ : ∃ k, n = k + 1 := ⟨n - 1, by omega⟩
  have before : t.windowsAt k = t.windowsAt c := by
    rcases (show c = k ∨ c < k by omega) with rfl | lt
    · rfl
    · exact same k lt (by omega)
  have edge : CycleTimes.nextEdge { t with limit := k + 1 } k = some (k + 1) :=
    (CycleTimes.nextEdge_succ_iff _ k).2 ⟨le_rfl, fun h => differs (h.trans before)⟩
  exact (List.mem_filter.1 (List.min?_mem edge)).1

/-- R158: the next edge is the first value at which the windows differ. -/
theorem CycleTimes.nextEdge_eq {t : CycleTimes} {c n : Nat} (later : c < n) (within : n ≤ t.limit)
    (differs : t.windowsAt n ≠ t.windowsAt c) (same : ∀ k, c < k → k < n → t.windowsAt k = t.windowsAt c) :
    t.nextEdge c = some n := by
  refine List.min?_eq_some_iff.2 ⟨?_, fun k mem => ?_⟩
  · simp only [List.mem_filter, Bool.and_eq_true, decide_eq_true_eq, bne_iff_ne]
    exact ⟨CycleTimes.exists_edge later differs same, ⟨later, within⟩, differs⟩
  · simp only [List.mem_filter, Bool.and_eq_true, decide_eq_true_eq, bne_iff_ne] at mem
    by_contra lt
    exact mem.2.2 (same k mem.2.1.1 (by omega))

theorem CycleTimes.nextEdge_none {t : CycleTimes} {c : Nat}
    (same : ∀ n, c < n → n ≤ t.limit → t.windowsAt n = t.windowsAt c) : t.nextEdge c = none := by
  refine List.min?_eq_none_iff.2 (List.filter_eq_nil_iff.2 fun n _ h => ?_)
  simp only [Bool.and_eq_true, decide_eq_true_eq, bne_iff_ne] at h
  exact h.2 (same n h.1.1 h.1.2)

section
variable (running : s.running = true)
include running

theorem exec_windowEdge_of_other (other : s.frost.stage ≠ .cycle) : exec .windowEdge s = .next s := by
  change execWindowEdge s = _
  rw [execWindowEdge, partEvent_of_running running, if_neg other]

theorem exec_windowEdge_of_none (edge : s.frost.latched.nextEdge s.frost.counter = none) : exec .windowEdge s = .next s := by
  change execWindowEdge s = _
  rw [execWindowEdge, partEvent_of_running running, edge]
  exact congrArg Host.Outcome.next (ite_self s)

theorem exec_windowEdge_of_edge (cycles : s.frost.stage = .cycle) {c : Nat}
    (edge : s.frost.latched.nextEdge s.frost.counter = some c) :
    exec .windowEdge s = .next (s.moveFrost (s.frost.reachEdge s.params s.frostOa c)) := by
  change execWindowEdge s = _
  rw [execWindowEdge, partEvent_of_running running, if_pos cycles, edge]

theorem exec_cycleWrap_of_other (other : s.frost.stage ≠ .cycle) : exec .cycleWrap s = .next s := by
  change execCycleWrap s = _
  rw [execCycleWrap, partEvent_of_running running, if_neg other]

theorem exec_cycleWrap_of_cycle (cycles : s.frost.stage = .cycle) : exec .cycleWrap s = .next s.wrapCycle := by
  change execCycleWrap s = _
  rw [execCycleWrap, partEvent_of_running running, if_pos cycles]

end

/-- R156 and R158: the guard at an edge. -/
theorem Frost.reachEdge_spec (p : Params) (oa : Option Int) (n : Nat) (g : Frost) :
    let w := g.latched.windowsAt n
    let t := g.reachEdge p oa n
    t = { g with counter := n, windows := w, reduction := t.reduction, preheat := t.preheat }
      ∧ (w.preheat = g.windows.preheat → t.reduction = g.reduction ∧ t.preheat = g.preheat)
      ∧ (w.preheat ≠ g.windows.preheat → t.OrdersFormed p oa) := by
  intro w t
  by_cases same : w.preheat = g.windows.preheat
  · have reached : t = { g with counter := n, windows := w } := if_pos same
    rw [reached]
    exact ⟨rfl, fun _ => ⟨rfl, rfl⟩, fun differs => absurd same differs⟩
  · have reached : t = Frost.formOrders p oa { g with counter := n, windows := w } := if_neg same
    rw [reached]
    exact ⟨rfl, fun h => absurd h same, fun _ => Frost.formOrders_formed p oa _⟩

/-! ### Wraps -/

/-- R158 and R160: the guard at the start of the next cycle. -/
theorem Frost.nextCycle_spec (p : Params) (oa : Option Int) (failed : Nat) (g : Frost) :
    let next := p.cycleTimes.windowsAt 1
    let t := g.nextCycle p oa failed
    t = { g with
        failed := failed, latched := p.cycleTimes, counter := 1, windows := next
        gateResult := none, unjudged := g.fallback, reduction := t.reduction, preheat := t.preheat }
      ∧ (g.windows.preheat = false ∧ next.preheat = false → t.reduction = g.reduction ∧ t.preheat = g.preheat)
      ∧ (g.windows.preheat = true ∨ next.preheat = true → t.OrdersFormed p oa) := by
  intro next t
  by_cases formed : (g.windows.preheat || next.preheat) = true
  · have begun : t = Frost.formOrders p oa (Frost.startCycle p { g with failed }) := if_pos formed
    rw [begun]
    refine ⟨rfl, fun h => ?_, fun _ => Frost.formOrders_formed p oa _⟩
    rw [h.1, h.2] at formed
    cases formed
  · have begun : t = Frost.startCycle p { g with failed } := if_neg formed
    rw [begun]
    exact ⟨rfl, fun _ => ⟨rfl, rfl⟩, fun h => absurd (Bool.or_eq_true_iff.2 h) formed⟩

/-- R155 and R160: the guard that leaves CYCLE at a wrap; the failed count stays with the reason ICED alone. -/
theorem Frost.leave_spec (cycles : g.stage = .cycle) (p : Params) (oa : Option Int) {st : Stage} (other : st ≠ .cycle)
    (r : Reason) (failed : Nat) :
    let t := Frost.enter p oa st r { g with failed }
    t = { g with
        stage := st, reason := r, failed := if st = .stop ∧ r = .iced then failed else 0, hold := 0, saturation := 0
        ice := 0, stopTimer := 0, counter := 0, windows := .closed, gateResult := none, unjudged := false
        reduction := t.reduction, preheat := t.preheat }
      ∧ t.OrdersFormed p oa := by
  intro t
  have entered : t = Frost.formOrders p oa { g with
      stage := st, reason := r, failed := if st = .stop ∧ r = .iced then failed else 0, hold := 0, saturation := 0
      ice := 0, stopTimer := 0, counter := 0, windows := .closed, gateResult := none, unjudged := false } := by
    simp only [t, Frost.enter, if_neg other, Frost.stopCycle, Frost.clearCounts, cycles, decide_true, Bool.true_and,
      Bool.and_eq_true, decide_eq_true_eq]
  rw [entered]
  exact ⟨rfl, Frost.formOrders_formed p oa _⟩

/-- R157 and R158: a wrap into the next cycle. -/
theorem State.wrapCycle_of_next {failed : Nat} (verdict : s.frost.wrapVerdict s.params s.frostOa = .next failed) :
    ∃ q : Pressure, State.judgeGates { s with frost := { s.frost with windows := .closed } } =
          { s with frost := { s.frost with windows := .closed }, pressure := q }
      ∧ s.wrapCycle.frost = s.frost.nextCycle s.params s.frostOa failed
      ∧ State.FrostHandedTo { s with pressure := q } (s.frost.nextCycle s.params s.frostOa failed)
          (s.frost.nextCycle s.params s.frostOa failed).windows.gate s.wrapCycle := by
  obtain ⟨q, judged, -⟩ := State.judgeGates_spec { s with frost := { s.frost with windows := .closed } }
  have wraps : s.wrapCycle =
      State.handFrost { s with pressure := q, frost := s.frost.nextCycle s.params s.frostOa failed } s.frost
        (s.frost.nextCycle s.params s.frostOa failed).windows.gate := by
    rw [State.wrapCycle, verdict]
    dsimp only
    rw [judged]
  rw [wraps]
  exact ⟨q, judged, State.handFrost_frost { s with pressure := q } _ _, State.handFrost_handedTo { s with pressure := q } _ _⟩

theorem State.wrapCycle_of_leave {st : Stage} {r : Reason} {failed : Nat}
    (verdict : s.frost.wrapVerdict s.params s.frostOa = .leave st r failed) :
    s.wrapCycle = s.moveFrost (Frost.enter s.params s.frostOa st r { s.frost with failed }) := by
  rw [State.wrapCycle, verdict]

/-- R167: the guard and the FROST timer after RELEARN_EXCHANGER. -/
theorem exec_relearnExchanger (answering : s.answering = true) :
    exec .relearnExchanger s =
      .next ((State.changed (State.relearnTimer { s with frost := s.frost.relearn } s.frost.baseline.pn0.isSome)
        .exchangerBaseline).respond .ok []) := by
  change execRelearnExchanger s = _
  rw [execRelearnExchanger, hostCommand_of_answering answering]
  rfl

/-- R134: what the judging of the gates makes of the channel. -/
theorem State.judgeGates_pressure (s : State) :
    (∀ f, s.pressure.phase.flight = some f → s.gateOpen f.requester = false →
      s.judgeGates.pressure = { s.pressure.setRequest f.requester
        ((s.pressure.request f.requester).map fun r => { r with granted := false }) with phase := .free })
    ∧ (¬(∃ f, s.pressure.phase.flight = some f ∧ s.gateOpen f.requester = false) →
      s.judgeGates.pressure = s.pressure) := by
  refine ⟨fun f flight shut => ?_, fun quiet => ?_⟩
  · have judged : s.judgeGates = { s with pressure := s.pressure.abort } := by
      rw [State.judgeGates, flight]
      exact if_neg (ne_true_of_eq_false shut)
    rw [judged, Pressure.abort, flight]
  · cases flight : s.pressure.phase.flight with
    | none => rw [State.judgeGates, flight]
    | some f =>
      have opens : s.gateOpen f.requester = true := by
        by_contra shut
        exact quiet ⟨f, flight, Bool.eq_false_iff.2 shut⟩
      rw [State.judgeGates, flight]
      exact congrArg State.pressure (if_pos opens)

/-- R162: the row of OA as the statement names it. -/
theorem fallbackStage_eq (p : Params) (oa : Option Int) :
    fallbackStage p oa = match oa with
      | none => .cycle
      | some t =>
        if t ≤ p.get .stopOa then .stop else if t ≤ -150 then .cycle else if t ≤ -50 then .limit
        else if t ≤ 0 then .watch else .clear := by
  cases oa <;> rfl

/-- Settles O55: an edge and a wrap each by the guard they leave, which `State.moveFrost` and `State.handFrost` hand on. -/
theorem cyclesRunAndAreJudged : Obligations.CyclesRunAndAreJudged := by
  intro s p g oa
  refine ⟨fun c n => rfl, fun running => ?_, fun answering => ?_⟩
  · intro moved
    refine ⟨fun other => ⟨exec_windowEdge_of_other running other, exec_cycleWrap_of_other running other⟩,
      fun cycles => ⟨fun n later within differs same => ?_, fun same =>
        exec_windowEdge_of_none running (CycleTimes.nextEdge_none same), ?_⟩⟩
    · intro w
      have edge := CycleTimes.nextEdge_eq later within differs same
      obtain ⟨guard, handed⟩ := s.moveFrost_handedTo (g.reachEdge p s.frostOa n)
      refine ⟨s.moveFrost (g.reachEdge p s.frostOa n), ⟨exec_windowEdge_of_edge running cycles edge, ?_⟩, ?_⟩
      · rw [guard]
        exact handed
      · rw [guard]
        exact Frost.reachEdge_spec p s.frostOa n g
    · intro goesOn leaves failing
      have wraps := exec_cycleWrap_of_cycle running cycles
      have go_on {failed : Nat} (verdict : g.wrapVerdict p s.frostOa = .next failed) : goesOn failed := by
        obtain ⟨q, judged, guard, handed⟩ := State.wrapCycle_of_next verdict
        obtain ⟨whole, kept, formed⟩ := Frost.nextCycle_spec p s.frostOa failed g
        have gate : (g.nextCycle p s.frostOa failed).windows = p.cycleTimes.windowsAt 1 := congrArg Frost.windows whole
        obtain ⟨aborted, stays⟩ := State.judgeGates_pressure { s with frost := { g with windows := .closed } }
        rw [judged] at aborted stays
        refine ⟨q, s.wrapCycle, wraps, aborted, stays, ?_⟩
        rw [guard]
        rw [gate] at handed
        exact ⟨handed, whole, kept, formed⟩
      have leave {st : Stage} {r : Reason} {failed kept : Nat} (verdict : g.wrapVerdict p s.frostOa = .leave st r failed)
          (other : st ≠ .cycle) (count : (if st = .stop ∧ r = .iced then failed else 0) = kept) : leaves st r kept := by
        obtain ⟨guard, handed⟩ := s.moveFrost_handedTo (Frost.enter p s.frostOa st r { g with failed })
        obtain ⟨whole, formed⟩ := Frost.leave_spec cycles p s.frostOa other r failed
        rw [count] at whole
        have moves := State.wrapCycle_of_leave verdict
        refine ⟨_, ⟨wraps.trans (congrArg Host.Outcome.next moves), ?_⟩, ?_⟩
        · rw [guard]
          exact handed
        · rw [guard]
          exact ⟨whole, formed⟩
      have fails (verdict : g.wrapVerdict p s.frostOa = failedVerdict g.failed) : failing := by
        by_cases last : 4 ≤ g.failed + 1
        · rw [failedVerdict, if_pos last] at verdict
          simp only [failing, if_pos last]
          exact leave verdict (by decide) (if_pos ⟨rfl, rfl⟩)
        · rw [failedVerdict, if_neg last] at verdict
          simp only [failing, if_neg last]
          exact go_on verdict
      refine ⟨fun normal judged => ?_, fun normal unjudged => go_on ?_, fun fallback => ?_⟩
      · have verdict : g.wrapVerdict p s.frostOa = g.judgeCycle p := by
          rw [Frost.wrapVerdict, if_neg (ne_true_of_eq_false normal), if_neg (ne_true_of_eq_false judged)]
        refine ⟨fun high => fails ?_, fun n ratio high => fails ?_, fun n m ratio low margin => ⟨fun thawed => ?_, fun cold => ?_⟩,
          fun m absent margin => ⟨fun thawed => ?_, fun cold => ?_⟩⟩
        · rw [verdict, Frost.judgeCycle, high]
        · rw [verdict, Frost.judgeCycle, ratio]
          exact if_pos high
        · refine leave (failed := g.failed) (verdict.trans ?_) (by decide) rfl
          rw [Frost.judgeCycle, ratio, margin]
          exact (if_neg (Nat.not_lt.2 low)).trans (if_pos (decide_eq_true thawed))
        · refine go_on (verdict.trans ?_)
          rw [Frost.judgeCycle, ratio, margin]
          exact (if_neg (Nat.not_lt.2 low)).trans (if_neg fun h => absurd (of_decide_eq_true h) (Int.not_le.2 cold))
        · refine leave (failed := g.failed) (verdict.trans ?_) (by decide) rfl
          rw [Frost.judgeCycle, absent, margin]
          exact if_pos (decide_eq_true thawed)
        · refine go_on (verdict.trans ?_)
          rw [Frost.judgeCycle, absent, margin]
          exact if_neg fun h => absurd (of_decide_eq_true h) (Int.not_le.2 cold)
      · rw [Frost.wrapVerdict, if_neg (ne_true_of_eq_false normal), if_pos unjudged]
      · intro row
        have row_eq : fallbackStage p s.frostOa = row := fallbackStage_eq p s.frostOa
        refine ⟨fun again => go_on ?_, fun other => leave (failed := g.failed) ?_ other (if_neg fun h => by cases h.2)⟩
        · rw [Frost.wrapVerdict, if_pos fallback, row_eq, if_pos again]
        · rw [Frost.wrapVerdict, if_pos fallback, row_eq, if_neg other]
  · have run := exec_relearnExchanger answering
    rw [State.relearnTimer] at run
    have restart_iff : (s.frost.baseline.pn0.isSome && decide (s.frost.relearn.stage = .clear)) = true ↔
        g.baseline.pn0 ≠ none ∧ g.stage = .clear := by
      rw [Bool.and_eq_true, Option.isSome_iff_ne_none, decide_eq_true_iff]
      rfl
    by_cases restarts : g.baseline.pn0 ≠ none ∧ g.stage = .clear
    · rw [if_pos (restart_iff.2 restarts)] at run
      refine ⟨_, run, rfl, fun clear _ => ?_, fun other => ?_⟩
      · change frostPeriod p false g.stage = _
        rw [clear]
        rfl
      · exact absurd restarts fun ⟨learnt, clear⟩ => other.elim (fun h => h clear) learnt
    · rw [if_neg (mt restart_iff.1 restarts)] at run
      exact ⟨_, run, rfl, fun clear learnt => absurd ⟨learnt, clear⟩ restarts, fun _ => rfl⟩

end Sys2Proof.Machine

/-! PROOFS. Volumes, operating hours and the advances of filter records (R176 to R179, R192). -/

namespace Sys2Proof.Machine

variable {s : State}

/-! ### Advances -/

theorem causeSet_ne_zero : ∀ a b c d : Bool, causeSet a b c d ≠ 0 ↔ a = true ∨ b = true ∨ c = true ∨ d = true := by decide

/-- R176: the causes by their bits. -/
theorem causeSet_bits : ∀ a b c d : Bool, (causeSet a b c d).getLsbD 0 = a ∧ (causeSet a b c d).getLsbD 1 = b
    ∧ (causeSet a b c d).getLsbD 2 = c ∧ (causeSet a b c d).getLsbD 3 = d := by decide

theorem causeSet_holds {a b c d : Bool} {c0 c1 c2 c3 : Prop} (h0 : a = true ↔ c0) (h1 : b = true ↔ c1)
    (h2 : c = true ↔ c2) (h3 : d = true ↔ c3) :
    ((causeSet a b c d).getLsbD 0 = true ↔ c0) ∧ ((causeSet a b c d).getLsbD 1 = true ↔ c1)
      ∧ ((causeSet a b c d).getLsbD 2 = true ↔ c2) ∧ ((causeSet a b c d).getLsbD 3 = true ↔ c3) := by
  obtain ⟨b0, b1, b2, b3⟩ := causeSet_bits a b c d
  rw [b0, b1, b2, b3]
  exact ⟨h0, h1, h2, h3⟩

/-- R176: an evaluation is the advance that its criteria give. -/
theorem FilterRecord.evaluate_advancedTo (p : Params) (hours : Nat) (atOver : Bool) (r : FilterRecord) :
    r.AdvancedTo p hours atOver (r.evaluate p hours atOver) := by
  unfold FilterRecord.AdvancedTo
  intro age reached over0 over1 over2 due0 due2 due3 causes
  have is_over0 : (r.latestRatio.any fun x => decide (p.nat .filterOverdueRatio ≤ x)) = true ↔ over0 := by
    rw [Option.any_eq_true]
    exact exists_congr fun x => and_congr_right fun _ => decide_eq_true_iff
  have is_over1 : (atOver && (decide (r.state = .service) || decide (r.state = .due))) = true ↔ over1 := by
    rw [Bool.and_eq_true, Bool.or_eq_true, decide_eq_true_iff, decide_eq_true_iff]
  have is_over2 : decide (r.interval + p.nat .overdueGrace ≤ r.age hours) = true ↔ over2 := decide_eq_true_iff
  have is_due0 : (decide (r.state = .service) && r.latestRatio.any fun x => decide (p.nat .filterDueRatio ≤ x)) = true ↔
      due0 := by
    rw [Bool.and_eq_true, decide_eq_true_iff, Option.any_eq_true]
    exact and_congr_right fun _ => exists_congr fun x => and_congr_right fun _ => decide_eq_true_iff
  have is_due2 : decide (r.interval ≤ r.age hours) = true ↔ due2 := decide_eq_true_iff
  have is_due3 : (decide (0 < p.nat .volumeLimit) && decide (p.nat .volumeLimit * 1000 ≤ r.volume)) = true ↔ due3 := by
    rw [Bool.and_eq_true, decide_eq_true_iff, decide_eq_true_iff]
  have over_iff : r.overdueCauses p hours atOver ≠ 0 ↔ over0 ∨ over1 ∨ over2 := by
    rw [FilterRecord.overdueCauses, causeSet_ne_zero, is_over0, is_over1, is_over2]
    simp
  have due_iff : r.dueCauses p hours ≠ 0 ↔ due0 ∨ due2 ∨ due3 := by
    rw [FilterRecord.dueCauses, causeSet_ne_zero, is_due0, is_due2, is_due3]
    simp
  have never : (false = true) ↔ False := by decide
  refine ⟨?_, fun state over_holds => ?_, fun state not_over due_holds => ?_, fun stays => ?_⟩
  · unfold FilterRecord.evaluate
    split_ifs <;> rfl
  · have advanced : r.evaluate p hours atOver = { r with state := .overdue, causes := r.overdueCauses p hours atOver } :=
      if_pos ⟨state, over_iff.2 over_holds⟩
    simp only [causes, advanced, true_and]
    exact causeSet_holds is_over0 is_over1 is_over2 never
  · have advanced : r.evaluate p hours atOver = { r with state := .due, causes := r.dueCauses p hours } :=
      (if_neg fun h => not_over (over_iff.1 h.2)).trans (if_pos ⟨state, due_iff.2 due_holds⟩)
    simp only [causes, advanced, true_and]
    exact causeSet_holds is_due0 never is_due2 is_due3
  · rcases stays with overdue | ⟨not_over, rest⟩
    · exact r.evaluate_of_overdue overdue p hours atOver
    · refine (if_neg fun h => not_over (over_iff.1 h.2)).trans (if_neg fun ⟨state, h⟩ => ?_)
      rcases rest with due | not_due
      · rw [due] at state
        exact state.elim (fun h => by cases h) (fun h => by cases h)
      · exact not_due (due_iff.1 h)

/-! ### Volumes and hours -/

theorem State.supplyFlow_eq (s : State) :
    s.supplyFlow = match s.freshFlow with
      | some q => q
      | none => roundDiv (CalTable.flowAt s.drive.cals.sup s.drive.sup.commanded * 1000) s.drive.trim := by
  rw [State.supplyFlow]
  cases s.freshFlow <;> rfl

theorem State.countedFlow_eq (s : State) :
    s.countedFlow = if s.drive.sup.commanded = 0 ∧ s.drive.ext.commanded = 0 then 0 else s.supplyFlow := by
  refine if_congr ?_ rfl rfl
  rw [Drive.stopped, Bool.and_eq_true, decide_eq_true_iff, decide_eq_true_iff]

section
variable (running : s.running = true)
include running

theorem exec_volumeAddition :
    exec .volumeAddition s = .next { s with filters :=
      { supply := s.filters.supply.map (·.addMinute s.countedFlow)
        extract := s.filters.extract.map (·.addMinute s.extractEstimate) } } := by
  change execVolumeAddition s = _
  rw [execVolumeAddition, partEvent_of_running running]

theorem exec_operatingHoursAdvance_of_end (full : 4294967295 ≤ s.hours) : exec .operatingHoursAdvance s = .next s := by
  change execOperatingHoursAdvance s = _
  rw [execOperatingHoursAdvance, partEvent_of_running running]
  exact congrArg Host.Outcome.next (if_neg (Nat.not_lt.2 full))

theorem exec_operatingHoursAdvance_of_lt (below : s.hours < 4294967295) :
    exec .operatingHoursAdvance s = .next s.hourPassed := by
  change execOperatingHoursAdvance s = _
  rw [execOperatingHoursAdvance, partEvent_of_running running]
  exact congrArg Host.Outcome.next (if_pos below)

end

theorem Filters.evaluate_slot (p : Params) (hours : Nat) (f : Filters) (i : FilterSlot) :
    (f.evaluate p hours).slot i = (f.slot i).map (·.evaluate p hours false) := by
  cases i <;> rfl

/-- R178: a record has advanced. -/
theorem Filters.advanced_iff (old new : Filters) :
    old.advanced new = true ↔ ∃ i, (new.slot i).map FilterRecord.state ≠ (old.slot i).map FilterRecord.state := by
  rw [Filters.advanced, Bool.or_eq_true, bne_iff_ne, bne_iff_ne]
  constructor
  · rintro (h | h)
    · exact ⟨.supply, h.symm⟩
    · exact ⟨.extract, h.symm⟩
  · rintro ⟨i, h⟩
    cases i
    · exact .inl h.symm
    · exact .inr h.symm

/-- R178: a record has advanced into OVERDUE. -/
theorem Filters.cappedMore_iff {old new : Filters} (kept : ∀ i, old.slot i = none → new.slot i = none) :
    old.cappedMore new = true ↔
      ∃ i r q, old.slot i = some r ∧ new.slot i = some q ∧ r.state ≠ .overdue ∧ q.state = .overdue := by
  have slot {a b : Option FilterRecord} (kept : a = none → b = none) :
      (b.any (·.state = .overdue) && a.all (·.state ≠ .overdue)) = true ↔
        ∃ r q, a = some r ∧ b = some q ∧ r.state ≠ .overdue ∧ q.state = .overdue := by
    rw [Bool.and_eq_true]
    cases a with
    | none => rw [kept rfl]; simp
    | some r => cases b <;> simp [and_comm]
  rw [Filters.cappedMore, Bool.or_eq_true]
  refine (or_congr (slot (kept .supply)) (slot (kept .extract))).trans ?_
  constructor
  · rintro (h | h)
    · exact ⟨.supply, h⟩
    · exact ⟨.extract, h⟩
  · rintro ⟨i, h⟩
    cases i
    · exact .inl h
    · exact .inr h

/-- Settles O59: a minute's air by `FilterRecord.addMinute`; an hour by the advances of `Filters.evaluate`. -/
theorem volumesAndHoursAccumulate : Obligations.VolumesAndHoursAccumulate := by
  intro s running
  refine ⟨?_, exec_operatingHoursAdvance_of_end running, fun below => ?_⟩
  · intro added supply extract
    have counted : s.countedFlow = supply := by
      rw [s.countedFlow_eq, s.supplyFlow_eq] <;> rfl
    rw [exec_volumeAddition running, counted]
    rfl
  · let new := s.filters.evaluate s.params (s.hours + 1)
    refine ⟨new.slot, s.hourPassed, ?_⟩
    intro same worse done
    have slots (i : FilterSlot) : new.slot i = (s.filters.slot i).map (·.evaluate s.params (s.hours + 1) false) :=
      Filters.evaluate_slot ..
    have kept (i : FilterSlot) (empty : s.filters.slot i = none) : new.slot i = none := by rw [slots, empty]; rfl
    have passes : s.hourPassed =
        if s.filters.cappedMore new then (done (if s.filters.advanced new then s.notices.set .filter else s.notices)).inputChanged
        else done (if s.filters.advanced new then s.notices.set .filter else s.notices) := by
      unfold State.hourPassed State.takeFilters
      simp only [State.notifyIf_eq]
      rfl
    have moved : s.filters.advanced new = true ↔ ∃ i, ¬same i := Filters.advanced_iff ..
    have capped : s.filters.cappedMore new = true ↔ ∃ i, worse i := Filters.cappedMore_iff kept
    have worse_moves (i : FilterSlot) : worse i → ¬same i := by
      rintro ⟨r, q, held, next, before, after⟩ stays
      have stays : (new.slot i).map FilterRecord.state = (s.filters.slot i).map FilterRecord.state := stays
      rw [held, show new.slot i = some q from next] at stays
      exact before (Option.some.inj stays ▸ after)
    refine ⟨exec_operatingHoursAdvance_of_lt running below, kept, fun i r held => ?_, fun all_same => ?_,
      fun some_moved none_worse => ?_, fun some_worse => ?_⟩
    · refine ⟨r.evaluate s.params (s.hours + 1) false, by rw [slots, held]; rfl, FilterRecord.evaluate_advancedTo _ _ _ _⟩
    · have still : ¬s.filters.advanced new = true := fun h => (moved.1 h).elim fun i moves => moves (all_same i)
      have no_cap : ¬s.filters.cappedMore new = true := fun h =>
        (capped.1 h).elim fun i falls => worse_moves i falls (all_same i)
      rw [passes, if_neg no_cap, if_neg still]
    · rw [passes, if_neg fun h => (capped.1 h).elim none_worse, if_pos (moved.2 some_moved)]
    · have some_moved : ∃ i, ¬same i := some_worse.imp worse_moves
      rw [passes, if_pos (capped.2 some_worse), if_pos (moved.2 some_moved)]
      exact State.inputChanged_recomputedTo _

end Sys2Proof.Machine

/-! PROOFS. The completion of a measurement: what it hands over and what it leaves of the channel (R130, R131, R147). -/

namespace Sys2Proof.Machine

variable {s u v : State} {f g : Flight} {r : Result}

/-! ### The roots of R143 -/

/-- R143: the bits from `k` down give the root, of a number below the square that they can reach. -/
theorem isqrtFrom_bounds (n : Nat) : ∀ k r : Nat, r * r ≤ n → n < (r + 2 ^ k) * (r + 2 ^ k) →
    isqrtFrom k n r * isqrtFrom k n r ≤ n ∧ n < (isqrtFrom k n r + 1) * (isqrtFrom k n r + 1)
  | 0, r, low, high => ⟨low, high⟩
  | k + 1, r, low, high => by
    rw [isqrtFrom]
    split
    · next fits =>
      refine isqrtFrom_bounds n k _ fits ?_
      rwa [Nat.add_assoc, ← Nat.two_mul, ← Nat.pow_succ']
    · next above => exact isqrtFrom_bounds n k r low (Nat.lt_of_not_le above)

theorem isqrt_bounds {n : Nat} (small : n < 4294967296) : isqrt n * isqrt n ≤ n ∧ n < (isqrt n + 1) * (isqrt n + 1) :=
  isqrtFrom_bounds n 16 0 (Nat.zero_le n) small

/-! ### What a completion leaves of the channel -/

/-- R131 steps 3, 5 and 6: the channel once the entry is written, the requester's slot emptied, its timer started and the channel
freed, `learnt` saying whether the exchanger's baseline is LEARNT. -/
def State.emptied (s : State) (f : Flight) (r : Result) (learnt : Bool) : Pressure :=
  let written : Pressure := { s.pressure.setEntry f.tap ⟨r, f.requester, s.clock.seconds⟩ with phase := .free }
  match f.requester with
  | .frost => { written with frost := none, frostTimer := frostPeriod s.params learnt s.frost.stage }
  | .trim => { written with trim := none, trimTimer := some s.params.trimPeriod }
  | .link =>
    { written with link := none, record := { s.pressure.record with state := .done, result := some r } }
  | .filter => { written with filter := none, filterTimer := some s.params.filterMs, lastSlot := f.slot }

/-- R131 step 3: the entry of the measurement's tap is overwritten. -/
def State.written (s : State) (f : Flight) : State :=
  s.setPressure (s.pressure.setEntry f.tap ⟨s.deriveResult f, f.requester, s.clock.seconds⟩)

/-- R131 steps 4 to 6, of the part `u` whose consumer has the result: what the channel then settles from. -/
def State.completed (u s : State) (f : Flight) : State :=
  { u with
    notices := if f.requester = .link then u.notices.set .measure else u.notices
    pressure := { s.emptied f (s.deriveResult f) u.frost.baseline.pn0.isSome with fresh := u.pressure.fresh } }

/-- R131: a completion settles the channel once the result is handed on. -/
theorem State.complete_eq (same : (s.written f).SameChannel u) (handed : (s.written f).handConsumer f (s.deriveResult f) = u)
    (params : u.params = s.params) (stage : u.frost.stage = s.frost.stage) :
    s.complete f = (u.completed s f).channelTail := by
  have channel : u.pressure = { s.pressure.setEntry f.tap ⟨s.deriveResult f, f.requester, s.clock.seconds⟩ with
      fresh := u.pressure.fresh } := same
  unfold State.complete State.handOn
  dsimp only
  rw [show s.setPressure _ = s.written f from rfl, handed]
  refine congrArg State.channelTail ?_
  have record : u.pressure.record = s.pressure.record := by
    rw [channel]
    cases f.tap <;> rfl
  unfold State.completed State.emptied State.restartTimer
  cases own : f.requester <;> rw [own] at channel
  case link =>
    rw [if_pos rfl, if_pos rfl]
    unfold State.handLink
    dsimp only [State.setPressure, State.notify]
    rw [record, channel]
    rfl
  case frost =>
    rw [if_neg (by decide), if_neg (by decide), ← params, ← stage]
    unfold State.restartFrostTimer
    dsimp only [State.setPressure]
    rw [channel]
    rfl
  all_goals
    rw [if_neg (by decide), if_neg (by decide), ← params]
    dsimp only [State.setPressure]
    rw [channel]
    rfl


/-! ### The channel after a completion -/

theorem Pressure.entry_setEntry (p : Pressure) (x y : Tap) (e : TapEntry) :
    (p.setEntry x e).entry y = if y = x then some e else p.entry y := by
  cases x <;> cases y <;> rfl

theorem State.emptied_entry (s : State) (f : Flight) (r : Result) (learnt : Bool) (y : Tap) :
    (s.emptied f r learnt).entry y = if y = f.tap then some ⟨r, f.requester, s.clock.seconds⟩ else s.pressure.entry y := by
  rw [← Pressure.entry_setEntry]
  unfold State.emptied
  cases f.requester <;> cases y <;> rfl

theorem State.emptied_request (s : State) (f : Flight) (r : Result) (learnt : Bool) :
    (s.emptied f r learnt).request f.requester = none := by
  unfold State.emptied
  cases f.requester <;> rfl

theorem State.emptied_phase (s : State) (f : Flight) (r : Result) (learnt : Bool) :
    (s.emptied f r learnt).phase = .free := by
  unfold State.emptied
  cases f.requester <;> rfl

theorem Pressure.FollowedBy.entry {p q : Pressure} (followed : p.FollowedBy q) (x : Tap) : q.entry x = p.entry x := by
  rw [followed.1]
  cases x <;> rfl

/-- R131: the channel that a completion settles to holds the new entry, no request of the requester, and the LINK record of a LINK
measurement. -/
theorem State.completed_settled {q : Pressure} (settled : (u.completed s f).ChannelSettledTo q) :
    q.entry f.tap = some ⟨s.deriveResult f, f.requester, s.clock.seconds⟩
      ∧ (∀ x, x ≠ f.tap → q.entry x = s.pressure.entry x) ∧ q.request f.requester = none
      ∧ (f.requester = .link →
        q.record = { s.pressure.record with state := .done, result := some (s.deriveResult f) }) := by
  obtain ⟨followed, granted, -⟩ := settled
  have entry (x : Tap) : q.entry x =
      if x = f.tap then some ⟨s.deriveResult f, f.requester, s.clock.seconds⟩ else s.pressure.entry x := by
    rw [followed.entry, ← s.emptied_entry f _ u.frost.baseline.pn0.isSome]
    cases x <;> rfl
  have emptied : (u.completed s f).pressure.request f.requester = none := by
    rw [← s.emptied_request f (s.deriveResult f) u.frost.baseline.pn0.isSome]
    cases f.requester <;> rfl
  refine ⟨(entry f.tap).trans (if_pos rfl), fun x other => (entry x).trans (if_neg other), ?_, fun own => ?_⟩
  · have none_left := followed.2 f.requester
    rw [emptied] at none_left
    exact Option.not_isSome_iff_eq_none.1 (by rw [none_left]; decide)
  · rw [own] at emptied
    refine (State.GrantedTo.record_of_none (granted (s.emptied_phase f _ _)) emptied).trans ?_
    show (s.emptied f _ _).record = _
    unfold State.emptied
    rw [own]


/-! ### The consumers -/

/-- R147: what a hand-over leaves of the part, whatever the result. -/
abbrev State.Beside (s t : State) : Prop :=
  t.params = s.params ∧ t.sensing = s.sensing ∧ t.demand = s.demand ∧ t.bus = s.bus ∧ t.humidity = s.humidity
    ∧ t.link = s.link ∧ t.clock = s.clock ∧ t.hours = s.hours

theorem State.setTrim_rest (s : State) (n : Nat) :
    s.setTrim n = { s with drive := (s.setTrim n).drive, pressure := (s.setTrim n).pressure } := by
  unfold State.setTrim
  split
  · rfl
  · rw [State.driveTail_eq]
    rfl

theorem State.handFlow_rest (s : State) (q : Nat) (atLimit : Bool) :
    s.handFlow q atLimit = { s with drive := (s.handFlow q atLimit).drive, pressure := (s.handFlow q atLimit).pressure } := by
  unfold State.handFlow
  dsimp only
  split
  · rw [State.setTrim_rest]
    rfl
  · rfl

/-- R178: a record takes new fields. -/
theorem State.moveFilter_rest (s : State) (i : FilterSlot) (a b : FilterRecord) :
    let t := s.moveFilter i a b
    t = { s with
      filters := s.filters.setSlot i (some b), notices := t.notices, store := t.store, resolver := t.resolver
      drive := t.drive, pressure := t.pressure } := by
  intro t
  have eq : t = s.moveFilter i a b := rfl
  unfold State.moveFilter at eq
  dsimp only at eq
  rw [State.changedIf_eq, State.notifyIf_eq] at eq
  split at eq
  · rw [State.recompute_eq] at eq
    rw [eq]
  · rw [eq]

theorem State.handConsumer_beside (s : State) (f : Flight) (r : Result) :
    s.Beside (s.handConsumer f r) ∧ (s.handConsumer f r).frost.stage = s.frost.stage := by
  unfold State.handConsumer
  split
  · rw [State.handFlow_rest]
    exact ⟨⟨rfl, rfl, rfl, rfl, rfl, rfl, rfl, rfl⟩, rfl⟩
  · unfold State.handExchanger
    dsimp only
    rw [State.changedIf_eq]
    exact ⟨⟨rfl, rfl, rfl, rfl, rfl, rfl, rfl, rfl⟩, (s.frost.takeResult_same _ _ _ _).1⟩
  · unfold State.handFilter
    split
    · rw [State.moveFilter_rest]
      exact ⟨⟨rfl, rfl, rfl, rfl, rfl, rfl, rfl, rfl⟩, rfl⟩
    · exact ⟨⟨rfl, rfl, rfl, rfl, rfl, rfl, rfl, rfl⟩, rfl⟩
  · exact ⟨⟨rfl, rfl, rfl, rfl, rfl, rfl, rfl, rfl⟩, rfl⟩

/-- R130 and R131: the conversion that completes a measurement. -/
theorem State.complete_completed (s : State) (f : Flight) :
    s.complete f = (((s.written f).handConsumer f (s.deriveResult f)).completed s f).channelTail :=
  State.complete_eq (State.handConsumer_sameChannel _ _ _) rfl (State.handConsumer_beside ..).1.1
    (State.handConsumer_beside ..).2

end Sys2Proof.Machine

/-! PROOFS. Readings and results: the rules that the eighth reading follows (R130, R131, R142 to R147, R111). -/

namespace Sys2Proof.Machine

variable {s u : State} {f g : Flight}

/-! ### Readings -/

/-- R127 and R130: a conversion adds its value, 0 where it is negative, or the mark OVER. -/
theorem Flight.add_eq (f : Flight) (c : Int) : f.add c =
    { f with
      count := f.count + 1, sum := f.sum + (if 5000 ≤ c then 0 else c.toNat)
      overRange := f.overRange || decide (5000 ≤ c) } := by
  unfold Flight.add
  split
  · next above => simp [above]
  · next below => simp [below]

section
variable (running : s.running = true)
include running

theorem exec_settleEnd_of_select (settling : s.pressure.phase = .select f) :
    exec .settleEnd s = .next { s with pressure := { s.pressure with phase := .sample f } } := by
  change execSettleEnd s = _
  rw [execSettleEnd, partEvent_of_running running, settling]
  rfl

theorem exec_settleEnd_of_other (other : s.pressure.phase = .free ∨ ∃ f, s.pressure.phase = .sample f) :
    exec .settleEnd s = .next s := by
  change execSettleEnd s = _
  rw [execSettleEnd, partEvent_of_running running]
  rcases other with free | ⟨f, sampling⟩
  · rw [free]
  · rw [sampling]

theorem exec_reading_of_sample (sampling : s.pressure.phase = .sample f) (c : Int) :
    exec (.reading c) s = .next (s.takeReading (f.add c)) := by
  change execReading c s = _
  rw [execReading, partEvent_of_running running, sampling]

theorem exec_reading_of_other (other : s.pressure.phase = .free ∨ ∃ f, s.pressure.phase = .select f) (c : Int) :
    exec (.reading c) s = .next s := by
  change execReading c s = _
  rw [execReading, partEvent_of_running running]
  rcases other with free | ⟨f, settling⟩
  · rw [free]
  · rw [settling]

/-- R130: the eighth reading completes the measurement. -/
theorem exec_reading_of_last (sampling : s.pressure.phase = .sample f) (last : 7 ≤ f.count) (c : Int) :
    exec (.reading c) s = .next (s.complete (f.add c)) := by
  rw [exec_reading_of_sample running sampling, State.takeReading, if_neg]
  rw [f.add_eq]
  exact Nat.not_lt.2 (Nat.succ_le_succ last)

end

/-! ### Derived values -/

/-- R144: the four conditions of a fresh FLOW entry. -/
theorem State.freshFlow_iff (s : State) (q : Nat) : s.freshFlow = some q ↔
    ∃ e, s.pressure.flowEntry = some e ∧ e.result.body = .orifice q ∧ e.result.overRange = false
      ∧ s.pressure.fresh = true ∧ s.clock.seconds - e.second ≤ 120 := by
  unfold State.freshFlow
  cases s.pressure.flowEntry with
  | none => simp
  | some e =>
    have orifice : e.result.orifice = some q ↔ e.result.body = .orifice q := by
      unfold Result.orifice
      cases e.result.body <;> simp
    by_cases fresh : e.result.overRange = false ∧ s.pressure.fresh = true ∧ s.clock.seconds - e.second ≤ 120
    · obtain ⟨inside, kept, young⟩ := fresh
      simp only [inside, kept, young, decide_true, Bool.not_false, Bool.and_true, if_true, orifice]
      exact ⟨fun h => ⟨e, rfl, h, inside, trivial, young⟩, fun ⟨x, same, body, _⟩ => (Option.some.inj same) ▸ body⟩
    · have stale : (!e.result.overRange && s.pressure.fresh && decide (s.clock.seconds - e.second ≤ 120)) = false := by
        rw [← Bool.not_eq_true, Bool.and_eq_true, Bool.and_eq_true, Bool.not_eq_true', decide_eq_true_iff]
        exact fun ⟨⟨inside, kept⟩, young⟩ => fresh ⟨inside, kept, young⟩
      simp only [stale]
      constructor
      · intro h; cases h
      · rintro ⟨x, same, -, holds⟩
        cases same
        exact absurd holds fresh

theorem State.deriveBody_flow (tap : f.tap = .flow) : s.deriveBody f = .orifice (orificeFlow s.params f.value) := by
  rw [State.deriveBody, tap]

/-- R144 and R145: the result of a measurement of a filter or the exchanger. -/
theorem State.deriveBody_element (tap : f.tap ≠ .flow) :
    let nominal := s.params.nat .nominalFlow
    ∃ outcome flow estimate pn, s.deriveBody f = .element outcome flow estimate pn
      ∧ (f.tap ≠ .supFilter → flow = s.extractEstimate ∧ estimate = true)
      ∧ (f.tap = .supFilter → (s.freshFlow = none → flow = s.supplyEstimate ∧ estimate = true)
          ∧ ∀ q, s.freshFlow = some q → flow = q ∧ estimate = false)
      ∧ (f.overRange = true → outcome = .overRange ∧ pn = none)
      ∧ (f.overRange = false → flow < roundDiv (nominal * 30) 100 → outcome = .lowFlow ∧ pn = none)
      ∧ (f.overRange = false → roundDiv (nominal * 30) 100 ≤ flow →
          outcome = .valid ∧ pn = some (min 65535 (roundDiv (f.value * nominal ^ 2) (flow ^ 2)))) := by
  intro nominal
  have body : s.deriveBody f =
      .element (judgeElement s.params f.value f.overRange (s.flowUsed f.tap).1).1 (s.flowUsed f.tap).1
        (s.flowUsed f.tap).2 (judgeElement s.params f.value f.overRange (s.flowUsed f.tap).1).2 := by
    unfold State.deriveBody
    cases at_tap : f.tap with
    | flow => exact absurd at_tap tap
    | _ => rfl
  refine ⟨_, _, _, _, body, fun other => ?_, fun at_supply => ?_, fun above => ?_, fun inside low => ?_,
    fun inside enough => ?_⟩
  · cases at_tap : f.tap with
    | supFilter => exact absurd at_tap other
    | _ => exact ⟨rfl, rfl⟩
  · rw [at_supply]
    unfold State.flowUsed State.supplyFlow
    exact ⟨fun stale => by rw [stale]; exact ⟨rfl, rfl⟩, fun q fresh => by rw [fresh]; exact ⟨rfl, rfl⟩⟩
  · rw [judgeElement, if_pos above]
    exact ⟨rfl, rfl⟩
  · rw [judgeElement, if_neg (by rw [inside]; decide), if_pos low]
    exact ⟨rfl, rfl⟩
  · rw [judgeElement, if_neg (by rw [inside]; decide), if_neg (Nat.not_lt.2 enough), Nat.pow_two, Nat.pow_two]
    exact ⟨rfl, rfl⟩

/-! ### The trim -/

/-- R111: the trim after a FLOW result. -/
def State.trimAfter (s : State) (q : Nat) (atLimit : Bool) : Nat :=
  if s.trims q atLimit then nextTrim s.drive.trim s.resolver.view.s1 q else s.drive.trim

/-- R111: the trim moves where the conditions let the result pass and it lies off the target by more than 2 %. -/
theorem State.trimAfter_eq (s : State) (q : Nat) (atLimit : Bool) :
    let s1 := s.resolver.view.s1
    let off := max q s1 - min q s1
    let moves := s.drive.steady = true ∧ s.drive.sup.state = .running ∧ s.drive.sup.source = .auto
      ∧ 0 < s1 ∧ atLimit = false ∧ 0 < q ∧ roundDiv (s1 * 2) 100 < off
    s.trimAfter q atLimit =
      if moves then min 1250 (max 750 (roundDiv (s.drive.trim * (s1 + q)) (2 * q))) else s.drive.trim := by
  intro s1 off moves
  have off_eq : (if s1 < q then q - s1 else s1 - q) = off := by
    dsimp only [off]
    split <;> omega
  have admitted : s.trims q atLimit = true ↔ s.drive.steady = true ∧ s.drive.sup.state = .running
      ∧ s.drive.sup.source = .auto ∧ 0 < s1 ∧ atLimit = false ∧ 0 < q := by
    unfold State.trims
    simp only [Bool.and_eq_true, decide_eq_true_iff, Bool.not_eq_true']
    tauto
  unfold State.trimAfter nextTrim
  dsimp only
  rw [off_eq, clampNat_eq_min_max (by decide)]
  by_cases conditions : s.trims q atLimit = true
  · rw [if_pos conditions]
    obtain ⟨steady, runs, source, asked, inside, flow⟩ := admitted.1 conditions
    by_cases far : roundDiv (s1 * 2) 100 < off
    · rw [if_pos far, if_pos (show moves from ⟨steady, runs, source, asked, inside, flow, far⟩)]
    · rw [if_neg far, if_neg fun h : moves => far h.2.2.2.2.2.2]
  · rw [if_neg conditions, if_neg]
    rintro ⟨steady, runs, source, asked, inside, flow, -⟩
    exact conditions (admitted.2 ⟨steady, runs, source, asked, inside, flow⟩)

/-- R111: a trim that moves does so with steady fans. -/
theorem State.trimAfter_steady {q : Nat} {atLimit : Bool} (moved : s.trimAfter q atLimit ≠ s.drive.trim) :
    s.drive.steady = true := by
  rw [s.trimAfter_eq] at moved
  by_contra unsteady
  exact moved (if_neg fun h => unsteady h.1)

/-- R111 and R144: the drive takes a FLOW result. -/
theorem State.handFlow_eq (s : State) (q : Nat) (atLimit : Bool) : s.handFlow q atLimit =
    let t := s.setTrim (s.trimAfter q atLimit)
    t.setPressure { t.pressure with fresh := t.drive.steady } := by
  unfold State.handFlow State.trimAfter
  split
  · rfl
  · rw [State.setTrim, if_pos rfl]

theorem State.formRequest_steady (s : State) (f : FanId) : (s.formRequest f).drive.steady = s.drive.steady := by
  unfold State.formRequest State.moveFan Drive.moveFan
  cases f <;> split <;> rfl

/-- R116 and R144: the drive's tail reads nothing of the channel but the flag of R144, and no notice. -/
theorem State.driveTail_beside (s : State) (n : Notices) (p : Pressure) :
    State.driveTail { s with notices := n, pressure := p } =
      { s.driveTail with
        notices := n
        pressure := { p with fresh := p.fresh && (s.driveTail.drive.steady || !s.drive.steady) } } := by
  by_cases same : s.effectivePreheat = s.drive.preheater.effective
  · have still : s.refreshPreheat = s := if_pos same
    have beside : State.refreshPreheat { s with notices := n, pressure := p } = { s with notices := n, pressure := p } :=
      if_pos same
    rw [State.driveTail, State.driveTail, still, beside]
    rfl
  · have moved : s.refreshPreheat = { s with drive := _ } := if_neg same
    have beside : State.refreshPreheat { s with notices := n, pressure := p } =
        { s with notices := n, pressure := p, drive := _ } := if_neg same
    rw [State.driveTail, State.driveTail, moved, beside]
    rfl

/-! ### Completions by their consumer -/

/-- R131: the part once a completion has written its entry, emptied its slot and freed the channel, its consumer aside; `learnt`
says whether the exchanger's baseline is LEARNT. -/
def State.finished (s : State) (f : Flight) (learnt : Bool) : State :=
  { s with
    pressure := s.emptied f (s.deriveResult f) learnt
    notices := if f.requester = .link then s.notices.set .measure else s.notices }

theorem State.emptied_fresh (s : State) (f : Flight) (r : Result) (learnt : Bool) :
    (s.emptied f r learnt).fresh = s.pressure.fresh := by
  unfold State.emptied
  cases f.requester <;> cases f.tap <;> rfl

theorem ite_bne {α β : Type} [DecidableEq α] (a b : α) (x y : β) : (if a != b then x else y) = if a = b then y else x := by
  by_cases same : a = b
  · rw [if_pos same, if_neg (by rw [same, bne_self_eq_false]; decide)]
  · rw [if_neg same, if_pos (bne_iff_ne.2 same)]

/-- A completion whose consumer moves neither the drive nor the resolver. -/
theorem State.completed_eq {guard : Frost} {m : Store} {n : Notices} {table : Filters}
    (handed : u = { s.written f with frost := guard, store := m, notices := n, filters := table }) :
    u.completed s f =
      { s.finished f guard.baseline.pn0.isSome with
        frost := guard, store := m, filters := table
        notices := if f.requester = .link then n.set .measure else n } := by
  have fresh : u.pressure.fresh = (s.emptied f (s.deriveResult f) u.frost.baseline.pn0.isSome).fresh := by
    rw [handed, State.emptied_fresh]
    show (s.pressure.setEntry _ _).fresh = _
    cases f.tap <;> rfl
  unfold State.completed
  rw [fresh, handed]
  rfl

/-- R131: a completion without a consumer in the drive, the guard or the filter table. -/
theorem State.complete_aside (handed : (s.written f).handConsumer f (s.deriveResult f) = s.written f) :
    s.complete f = (s.finished f s.frost.baseline.pn0.isSome).channelTail := by
  rw [State.complete_completed, handed, State.completed_eq (u := s.written f) rfl]
  rfl

section
variable (tap : f.tap = .flow)
include tap

theorem State.handConsumer_flow (s : State) :
    (s.written f).handConsumer f (s.deriveResult f) =
      (s.written f).handFlow (orificeFlow s.params f.value) f.overRange := by
  unfold State.handConsumer State.deriveResult
  rw [State.deriveBody_flow tap]

/-- R111 and R144: a FLOW result that leaves the trim. -/
theorem State.complete_flow_of_kept
    (kept : s.trimAfter (orificeFlow s.params f.value) f.overRange = s.drive.trim) :
    s.complete f =
      (let done := s.finished f s.frost.baseline.pn0.isSome
       State.channelTail { done with pressure := { done.pressure with fresh := s.drive.steady } }) := by
  have still : (s.written f).setTrim ((s.written f).trimAfter (orificeFlow s.params f.value) f.overRange) = s.written f :=
    if_pos kept
  rw [State.complete_completed, State.handConsumer_flow tap, State.handFlow_eq]
  dsimp only
  rw [still]
  rfl

/-- R111 and R144: a FLOW result that moves the trim. -/
theorem State.complete_flow_of_moved
    (moved : s.trimAfter (orificeFlow s.params f.value) f.overRange ≠ s.drive.trim) :
    s.complete f =
      (let done := s.finished f s.frost.baseline.pn0.isSome
       State.driveChanged (State.formRequest
        { done with
          drive := { s.drive with trim := s.trimAfter (orificeFlow s.params f.value) f.overRange }
          pressure := { done.pressure with fresh := true } } .sup)) := by
  let w : State := { s.written f with drive :=
    { s.drive with trim := s.trimAfter (orificeFlow s.params f.value) f.overRange } }
  have trimmed : (s.written f).setTrim ((s.written f).trimAfter (orificeFlow s.params f.value) f.overRange) =
      (w.formRequest .sup).driveTail := if_neg moved
  have steady : (w.formRequest .sup).drive.steady = true :=
    (w.formRequest_steady .sup).trans (State.trimAfter_steady (s := s) moved)
  rw [State.complete_completed, State.handConsumer_flow tap, State.handFlow_eq]
  dsimp only
  rw [trimmed, State.driveChanged]
  refine congrArg State.channelTail ?_
  refine Eq.trans ?_ (State.driveTail_beside (w.formRequest .sup) _ _).symm
  rw [steady, Bool.not_true, Bool.or_false, Bool.true_and, State.driveTail_eq]
  rfl

end


/-- R147: the consumers of a measurement of a filter or the exchanger. -/
theorem State.handConsumer_element {o : MeasureOutcome} {flow : Nat} {estimate : Bool} {pn : Option Nat}
    (body : s.deriveBody f = .element o flow estimate pn) :
    (s.written f).handConsumer f (s.deriveResult f) =
      match f.requester, f.slot with
      | .frost, _ => (s.written f).handExchanger o (pn.getD 0)
      | .filter, some i => (s.written f).handFilter i o (pn.getD 0)
      | _, _ => s.written f := by
  unfold State.handConsumer State.deriveResult
  rw [body]
  cases f.requester <;> cases f.slot <;> rfl

section
variable {o : MeasureOutcome} {flow : Nat} {estimate : Bool} {pn : Option Nat}
  (body : s.deriveBody f = .element o flow estimate pn)
include body

/-- R147: the results of TRIM and LINK move no consumer. -/
theorem State.complete_of_unconsumed (own : f.requester = .trim ∨ f.requester = .link) :
    s.complete f = (s.finished f s.frost.baseline.pn0.isSome).channelTail := by
  refine State.complete_aside ?_
  rw [State.handConsumer_element body]
  rcases own with h | h <;> rw [h]

/-- R165: a FROST result reaches the guard. -/
theorem State.complete_frost (own : f.requester = .frost) :
    let g := s.frost.takeResult s.params s.drive.steady o (pn.getD 0)
    s.complete f =
      State.channelTail
        { s.finished f g.baseline.pn0.isSome with
          frost := g
          store := if g.baseline = s.frost.baseline then s.store else s.store.change .exchangerBaseline } := by
  intro g
  let changes : Bool := g.baseline != s.frost.baseline
  have handed : (s.written f).handConsumer f (s.deriveResult f) =
      { s.written f with frost := g, store := if changes then s.store.change .exchangerBaseline else s.store } := by
    rw [State.handConsumer_element body, own, State.handExchanger]
    dsimp only
    rw [State.changedIf_eq]
    rfl
  rw [State.complete_completed, handed, ← ite_bne g.baseline]
  exact congrArg State.channelTail (State.completed_eq (n := s.notices) (table := s.filters) rfl)

/-- R174: a FILTER result of an empty slot reaches no record. -/
theorem State.complete_filter_of_empty (own : f.requester = .filter)
    (empty : ∀ i, f.slot = some i → s.filters.slot i = none) :
    s.complete f = (s.finished f s.frost.baseline.pn0.isSome).channelTail := by
  refine State.complete_aside ?_
  rw [State.handConsumer_element body, own]
  cases slot : f.slot with
  | none => rfl
  | some i =>
    show State.handFilter _ i _ _ = _
    unfold State.handFilter
    rw [show (s.written f).filters.slot i = none from empty i slot]

end

/-- R87 and R144: a recompute reads nothing of the channel but the flag of R144, and no notice. -/
theorem State.recompute_beside (s : State) (n : Notices) (p : Pressure) :
    State.recompute { s with notices := n, pressure := p } =
      { s.recompute with
        notices := n
        pressure := { p with fresh := p.fresh && (s.recompute.drive.steady || !s.drive.steady) } } := by
  let viewed : State := { s with resolver := { s.resolver with view := resolve s } }
  refine (State.driveTail_beside ((viewed.formRequest .sup).formRequest .ext) n p).trans ?_
  rw [State.formRequest_steady, State.formRequest_steady]
  rfl


/-- R174, R178 and R181: the part once a completion has put the record `q` in the place of `r` in slot `i`. -/
def State.refiltered (s : State) (f : Flight) (i : FilterSlot) (r q : FilterRecord) : State :=
  { s.finished f s.frost.baseline.pn0.isSome with
    filters := s.filters.setSlot i (some q)
    notices := if q.state = r.state then s.notices else s.notices.set .filter
    store := if { q with lastValid := none } = { r with lastValid := none } then s.store
      else s.store.change .filterRecords }

theorem FilterRecord.storedDiffers_eq (a b : FilterRecord) :
    a.storedDiffers b = ({ b with lastValid := none } != { a with lastValid := none }) := bne_comm

section
variable {o : MeasureOutcome} {flow : Nat} {estimate : Bool} {pn : Option Nat}
  (body : s.deriveBody f = .element o flow estimate pn) (own : f.requester = .filter)
  {i : FilterSlot} {r : FilterRecord} (slot : f.slot = some i) (held : s.filters.slot i = some r)
include body own slot held

/-- R174: a FILTER result reaches the record of its slot. -/
theorem State.complete_filter :
    let q := r.takeResult s.params s.hours s.clock.seconds o (pn.getD 0)
    s.complete f =
      if q.state = .overdue ∧ r.state ≠ .overdue then (s.refiltered f i r q).inputChanged
      else (s.refiltered f i r q).channelTail := by
  intro q
  let taken : State :=
    { s.written f with
      filters := s.filters.setSlot i (some q)
      notices := if q.state = r.state then s.notices else s.notices.set .filter
      store := if { q with lastValid := none } = { r with lastValid := none } then s.store
        else s.store.change .filterRecords }
  have handed : (s.written f).handConsumer f (s.deriveResult f) =
      if q.state = .overdue ∧ r.state ≠ .overdue then taken.recompute else taken := by
    rw [State.handConsumer_element body, own, slot]
    dsimp only
    rw [State.handFilter, show (s.written f).filters.slot i = some r from held]
    dsimp only
    rw [State.moveFilter, State.changedIf_eq, State.notifyIf_eq]
    dsimp only
    rw [FilterRecord.storedDiffers_eq, ite_bne, ite_bne]
    rfl
  have link : ¬f.requester = .link := by rw [own]; decide
  have beside : taken.completed s f = s.refiltered f i r q := by
    refine (State.completed_eq (u := taken) rfl).trans ?_
    rw [if_neg link]
    rfl
  rw [State.complete_completed, handed]
  split
  · refine congrArg State.channelTail ?_
    have fresh : (s.emptied f (s.deriveResult f) s.frost.baseline.pn0.isSome).fresh = taken.pressure.fresh :=
      congrArg (fun x : State => x.pressure.fresh) beside.symm
    have recomputed := State.recompute_beside taken taken.notices
      (s.emptied f (s.deriveResult f) s.frost.baseline.pn0.isSome)
    have alone : taken.recompute.pressure.fresh =
        (taken.pressure.fresh && (taken.recompute.drive.steady || !taken.drive.steady)) :=
      congrArg (fun x : State => x.pressure.fresh) (State.recompute_beside taken taken.notices taken.pressure)
    rw [fresh, ← alone] at recomputed
    refine Eq.trans ?_ recomputed.symm
    unfold State.completed
    rw [if_neg link, State.recompute_eq]
    rfl
  · exact congrArg State.channelTail beside

end

end Sys2Proof.Machine

/-! PROOFS. What the eighth reading of a measurement does (R130, R131). -/

namespace Sys2Proof.Machine

variable {s t x : State} {f : Flight}

/-- R134: what a settled channel leaves of the rest of the part. -/
theorem State.settledTo_of_channelTail (tail : t = x.channelTail) :
    t = { x with pressure := t.pressure } ∧ x.ChannelSettledTo t.pressure := by
  obtain ⟨q, same, settled⟩ := x.channelTail_spec
  rw [tail, same]
  exact ⟨rfl, settled⟩

theorem State.channelTail_drive (x : State) : x.channelTail.drive = x.drive := by
  obtain ⟨q, same, -⟩ := x.channelTail_spec
  rw [same]

theorem State.channelTail_frost (x : State) : x.channelTail.frost = x.frost := by
  obtain ⟨q, same, -⟩ := x.channelTail_spec
  rw [same]

theorem State.channelTail_filters (x : State) : x.channelTail.filters = x.filters := by
  obtain ⟨q, same, -⟩ := x.channelTail_spec
  rw [same]

theorem State.GrantedTo.fresh {q : Pressure} (granted : s.GrantedTo q) : q.fresh = s.pressure.fresh := by
  by_cases some_eligible : ∃ x, s.eligible x = true
  · obtain ⟨x, eligible⟩ := some_eligible
    obtain ⟨y, goes⟩ := State.exists_grantGoesTo eligible
    obtain ⟨r, -, grants, -⟩ := granted.flight goes
    exact grants.2.2.2.2.2.2.1
  · rw [granted.1 fun x => Bool.eq_false_iff.2 fun h => some_eligible ⟨x, h⟩]

theorem State.handConsumer_notices_of_link (own : f.requester = .link) :
    ((s.written f).handConsumer f (s.deriveResult f)).notices = s.notices := by
  by_cases tap : f.tap = .flow
  · rw [State.handConsumer_flow tap, State.handFlow_rest]
    rfl
  · obtain ⟨o, flow, estimate, pn, body, -⟩ := State.deriveBody_element (s := s) tap
    rw [State.handConsumer_element body, own]
    rfl

theorem State.channelTail_fresh (free : x.pressure.phase = .free) : x.channelTail.pressure.fresh = x.pressure.fresh := by
  obtain ⟨q, same, -, granted, -⟩ := x.channelTail_spec
  rw [same]
  exact (granted free).fresh

/-- R131: what every completion leaves. -/
theorem State.complete_spec (s : State) (f : Flight) :
    let t := s.complete f
    t.pressure.entry f.tap = some ⟨s.deriveResult f, f.requester, s.clock.seconds⟩
      ∧ (∀ x, x ≠ f.tap → t.pressure.entry x = s.pressure.entry x) ∧ t.pressure.request f.requester = none
      ∧ s.Beside t
      ∧ (f.requester = .link →
        t.pressure.record = { s.pressure.record with state := .done, result := some (s.deriveResult f) }
          ∧ t.notices = s.notices.set .measure) := by
  intro t
  obtain ⟨rest, settled⟩ := State.settledTo_of_channelTail (State.complete_completed s f)
  obtain ⟨entry, others, emptied, record⟩ := State.completed_settled settled
  refine ⟨entry, others, emptied, ?_, fun own => ⟨record own, ?_⟩⟩
  · show s.Beside (s.complete f)
    rw [rest]
    exact (State.handConsumer_beside (s.written f) f (s.deriveResult f)).1
  · show (s.complete f).notices = _
    rw [rest]
    exact (if_pos own).trans (congrArg (·.set .measure) (State.handConsumer_notices_of_link own))

theorem Filters.slot_setSlot (x : Filters) (i : FilterSlot) (r : Option FilterRecord) : (x.setSlot i r).slot i = r := by
  cases i <;> rfl

theorem Filters.slot_setSlot_of_ne (x : Filters) (r : Option FilterRecord) {i j : FilterSlot} (other : j ≠ i) :
    (x.setSlot i r).slot j = x.slot j := by
  cases i with
  | supply =>
    cases j with
    | supply => exact absurd rfl other
    | extract => rfl
  | extract =>
    cases j with
    | supply => rfl
    | extract => exact absurd rfl other

/-- R174: a FILTER result leaves the guard and the other slot. -/
theorem State.complete_filter_keeps {o : MeasureOutcome} {flow : Nat} {estimate : Bool} {pn : Option Nat}
    (body : s.deriveBody f = .element o flow estimate pn) (own : f.requester = .filter) {i : FilterSlot}
    (slot : f.slot = some i) :
    (s.complete f).frost = s.frost ∧ ∀ j, j ≠ i → (s.complete f).filters.slot j = s.filters.slot j := by
  cases held : s.filters.slot i with
  | none =>
    rw [State.complete_filter_of_empty body own fun j at_slot => by rw [← Option.some.inj (slot.symm.trans at_slot), held],
      State.channelTail_frost, State.channelTail_filters]
    exact ⟨rfl, fun _ _ => rfl⟩
  | some r =>
    have others (q : FilterRecord) (j : FilterSlot) (other : j ≠ i) :
        (s.refiltered f i r q).filters.slot j = s.filters.slot j :=
      Filters.slot_setSlot_of_ne _ _ other
    rw [State.complete_filter body own slot held]
    split
    · obtain ⟨rest, -⟩ := State.inputChanged_recomputedTo
        (s.refiltered f i r (r.takeResult s.params s.hours s.clock.seconds o (pn.getD 0)))
      rw [rest]
      exact ⟨rfl, others _⟩
    · rw [State.channelTail_frost, State.channelTail_filters]
      exact ⟨rfl, others _⟩

/-- Settles O50: the readings up to the eighth; then the completion by its consumer. -/
theorem readingsAddUpToAResult : Obligations.ReadingsAddUpToAResult := by
  intro s running
  refine ⟨fun f => exec_settleEnd_of_select running, exec_settleEnd_of_other running, exec_reading_of_other running,
    fun n => isqrt_bounds, s.freshFlow_iff, rfl, rfl, fun f c sampling => ?_⟩
  intro g
  have added : f.add c = g := f.add_eq c
  refine ⟨fun few => ?_, fun last => ?_⟩
  · rw [exec_reading_of_sample running sampling, added]
    exact congrArg Host.Outcome.next (if_pos (Nat.succ_lt_succ few))
  intro value nominal
  obtain ⟨entry, others, emptied_slot, beside, linked⟩ := s.complete_spec g
  refine ⟨s.complete g, s.deriveBody g, added ▸ exec_reading_of_last running sampling last c, entry, others, emptied_slot,
    State.deriveBody_flow (f := g), State.deriveBody_element (f := g), beside, ?_⟩
  intro learnt written emptied done
  have done_eq : s.finished g (s.complete g).frost.baseline.pn0.isSome = done := by
    show State.finished _ _ _ = _
    rfl
  have frost_of {x : State} (tail : s.complete g = x.channelTail) : (s.complete g).frost = x.frost :=
    (congrArg State.frost tail).trans x.channelTail_frost
  have aside (tail : s.complete g = (s.finished g s.frost.baseline.pn0.isSome).channelTail) :
      s.complete g = { done with pressure := (s.complete g).pressure } ∧ done.ChannelSettledTo (s.complete g).pressure := by
    rw [← done_eq, frost_of tail]
    exact State.settledTo_of_channelTail tail
  refine ⟨fun own => ?_, fun tap => ?_, fun tap own => ?_, fun tap own => ?_, fun tap own empty => ?_,
    fun i own slot tap => ?_⟩
  · obtain ⟨record, notices⟩ := linked own
    refine ⟨record.trans ?_, notices⟩
    dsimp only [emptied]
    rw [own]
    rfl
  · intro q s1 off moves trim
    have trim_eq : s.trimAfter (orificeFlow s.params g.value) g.overRange = trim := s.trimAfter_eq _ _
    by_cases same : trim = s.drive.trim
    · have tail := State.complete_flow_of_kept (f := g) tap (trim_eq.trans same)
      have drive : (s.complete g).drive = s.drive := (congrArg State.drive tail).trans (State.channelTail_drive _)
      have fresh : (s.complete g).pressure.fresh = s.drive.steady :=
        (congrArg (fun x : State => x.pressure.fresh) tail).trans (State.channelTail_fresh (s.emptied_phase g _ _))
      refine ⟨?_, ?_, fun _ => ?_, fun moved => absurd same moved⟩
      · rw [drive, same]
      · rw [drive, fresh]
      · intro kept
        have kept_eq : State.finished s g s.frost.baseline.pn0.isSome = done := by
          rw [← done_eq, frost_of tail]
          rfl
        rw [kept_eq] at tail
        exact State.settledTo_of_channelTail tail
    · have tail := State.complete_flow_of_moved (f := g) tap (trim_eq.trans_ne same)
      rw [trim_eq] at tail
      have formed := State.formRequest_driveChanged_spec
        (let done := s.finished g s.frost.baseline.pn0.isSome
         { done with drive := { s.drive with trim }, pressure := { done.pressure with fresh := true } }) .sup
      dsimp only at tail formed
      rw [← tail] at formed
      have guard : (s.complete g).frost = s.frost := (congrArg State.frost formed.1.1).trans rfl
      rw [guard] at done_eq
      rw [done_eq] at formed
      obtain ⟨moved, settled, sup, others, -⟩ := formed
      have steady : s.drive.steady = true :=
        State.trimAfter_steady (s := s) (q := orificeFlow s.params g.value) (atLimit := g.overRange) (trim_eq.trans_ne same)
      refine ⟨congrArg Drive.trim moved.2.1, ?_, fun kept => absurd kept same,
        fun _ => ⟨moved, settled, others .ext (by decide), sup⟩⟩
      obtain ⟨-, -, -, -, -, granted, -⟩ := settled
      refine (granted ?_).fresh.trans ?_
      · exact (congrArg (fun x : State => x.pressure.phase) done_eq.symm).trans (s.emptied_phase g _ _)
      · dsimp only
        rw [steady, Bool.not_true, Bool.or_false, Bool.true_and]
  · obtain ⟨o, flow, estimate, pn, body, -⟩ := State.deriveBody_element (f := g) tap
    exact aside (State.complete_of_unconsumed body own)
  · obtain ⟨o, flow, estimate, pn, body, -⟩ := State.deriveBody_element (f := g) tap
    have tail := State.complete_frost body own
    have guard := frost_of tail
    rw [← done_eq, guard]
    exact State.settledTo_of_channelTail tail
  · obtain ⟨o, flow, estimate, pn, body, -⟩ := State.deriveBody_element (f := g) tap
    exact aside (State.complete_filter_of_empty body own empty)
  · obtain ⟨o, flow, estimate, pn, body, -⟩ := State.deriveBody_element (f := g) tap
    exact State.complete_filter_keeps body own slot

end Sys2Proof.Machine

/-! PROOFS. Results reach the guard and the filter records (R159, R165, R166, R174, R175). -/

namespace Sys2Proof.Machine

variable {s : State} {f : Flight}

/-! ### The guard -/

/-- R165: the ice that a shown result says. -/
def RatioResult.icy (p : Params) : RatioResult → Prop
  | .overRange => True
  | .ratio n => p.nat .iceRatio ≤ n

section
variable (p : Params) (x : RatioResult) {g : Frost}

theorem Frost.showRatio_of_limit (stage : g.stage = .limit) :
    let t := g.showRatio p x
    t = { g with lastRatio := some x, ice := t.ice } ∧ (x.icy p → t.ice = min 2 (g.ice + 1)) ∧ (¬x.icy p → t.ice = 0) := by
  unfold Frost.showRatio
  rw [stage]
  cases x with
  | overRange => exact ⟨rfl, fun _ => rfl, fun h => absurd trivial h⟩
  | ratio n => exact ⟨rfl, fun h => if_pos (decide_eq_true (show p.nat .iceRatio ≤ n from h)),
    fun h => if_neg fun cold => h (show p.nat .iceRatio ≤ n from of_decide_eq_true cold)⟩

theorem Frost.showRatio_of_cycle (stage : g.stage = .cycle) :
    g.showRatio p x = { g with lastRatio := some x, gateResult := some x } := by
  unfold Frost.showRatio
  rw [stage]

theorem Frost.showRatio_of_other (limit : g.stage ≠ .limit) (cycle : g.stage ≠ .cycle) :
    g.showRatio p x = { g with lastRatio := some x } := by
  unfold Frost.showRatio
  cases stage : g.stage with
  | limit => exact absurd stage limit
  | cycle => exact absurd stage cycle
  | _ => rfl

/-- R165: what a result that shows a ratio or OVER leaves of the guard. -/
theorem Frost.showRatio_spec (g : Frost) :
    let t := g.showRatio p x
    t = { g with lastRatio := some x, ice := t.ice, gateResult := t.gateResult }
      ∧ (g.stage = .limit → x.icy p → t.ice = min 2 (g.ice + 1))
      ∧ (g.stage = .limit → ¬x.icy p → t.ice = 0) ∧ (g.stage ≠ .limit → t.ice = g.ice)
      ∧ t.gateResult = if g.stage = .cycle then some x else g.gateResult := by
  by_cases limit : g.stage = .limit
  · obtain ⟨rest, icy, clear⟩ := Frost.showRatio_of_limit p x limit
    have gate : (g.showRatio p x).gateResult = g.gateResult := (congrArg Frost.gateResult rest).trans rfl
    refine ⟨?_, fun _ => icy, fun _ => clear, fun other => absurd limit other, ?_⟩
    · rwa [gate]
    · rw [gate, if_neg (by rw [limit]; decide)]
  · by_cases cycle : g.stage = .cycle
    · rw [Frost.showRatio_of_cycle p x cycle]
      exact ⟨rfl, fun h => absurd h limit, fun h => absurd h limit, fun _ => rfl, (if_pos cycle).symm⟩
    · rw [Frost.showRatio_of_other p x limit cycle]
      exact ⟨rfl, fun h => absurd h limit, fun h => absurd h limit, fun _ => rfl, (if_neg cycle).symm⟩

end

/-- Settles O56: the guard by `Frost.takeResult`, the records by `FilterRecord.takeResult` and their advances. -/
theorem resultsReachTheirConsumers : Obligations.ResultsReachTheirConsumers := by
  intro s f c running sampling last tap
  let g := f.add c
  obtain ⟨same_requester, same_tap, same_slot⟩ : g.requester = f.requester ∧ g.tap = f.tap ∧ g.slot = f.slot :=
    f.add_same c
  obtain ⟨o, flow, estimate, pn, body, -⟩ := State.deriveBody_element (s := s) (f := g) (same_tap ▸ tap)
  have result : s.deriveResult g = ⟨g.value, g.overRange, .element o flow estimate pn⟩ := by
    rw [State.deriveResult, body]
  obtain ⟨entry, -⟩ := s.complete_spec g
  rw [same_tap, same_requester, result] at entry
  refine ⟨s.complete g, g.value, g.overRange, o, flow, estimate, pn, exec_reading_of_last running sampling last c, entry,
    fun own => ?_, fun i r own slot held => ?_⟩
  · intro guard shows
    have tail := State.complete_frost body (same_requester.trans own)
    obtain ⟨rest, -⟩ := State.settledTo_of_channelTail tail
    have taken : (s.complete g).frost = guard.takeResult s.params s.drive.steady o (pn.getD 0) :=
      (congrArg State.frost rest).trans rfl
    have stored : (s.complete g).store = if (guard.takeResult s.params s.drive.steady o (pn.getD 0)).baseline = guard.baseline
        then s.store else s.store.change .exchangerBaseline := (congrArg State.store rest).trans rfl
    have shown (x : RatioResult) (eq : guard.takeResult s.params s.drive.steady o (pn.getD 0) = guard.showRatio s.params x) :
        shows x (x.icy s.params) := by
      have spec := guard.showRatio_spec s.params x
      rw [← eq, ← taken] at spec
      exact spec
    refine ⟨fun low => ?_, fun above => ?_, fun n n0 valid normal learnt => ?_, fun n valid normal unlearnt => ?_⟩
    · rw [taken, low]
      rfl
    · exact shown .overRange (by rw [above]; rfl)
    · exact shown (.ratio _) (by rw [valid, normal, Frost.takeResult, learnt]; rfl)
    · intro learns b
      have learns_iff : (guard.stage.calm && s.drive.steady) = true ↔ learns := by
        rw [Bool.and_eq_true, Stage.calm_iff]
      have takes : guard.takeResult s.params s.drive.steady o (pn.getD 0) =
          if guard.stage.calm && s.drive.steady then { guard with baseline := guard.baseline.learn n } else guard := by
        rw [valid, normal, Frost.takeResult, unlearnt]
        rfl
      refine ⟨fun h => ?_, fun h => ?_⟩
      · rw [taken, takes, if_neg (mt learns_iff.1 h)]
      · rw [stored, taken, takes, if_pos (learns_iff.2 h), if_neg]
        · exact ⟨rfl, rfl⟩
        · intro stays
          exact absurd (congrArg Baseline.count stays) (Nat.succ_ne_self _)
  · have slot := same_slot.trans slot
    have passes := State.complete_filter body (same_requester.trans own) slot held
    generalize took : r.takeResult s.params s.hours s.clock.seconds o (pn.getD 0) = q at passes
    dsimp only at passes
    refine ⟨q, ?_, ?_, fun low => ?_, fun above => ?_, fun n valid normal => ?_⟩
    · have filters : (s.complete g).filters = s.filters.setSlot i (some q) := by
        rw [passes]
        split
        · exact (congrArg State.filters (State.inputChanged_recomputedTo (s.refiltered g i r q)).1).trans rfl
        · exact State.channelTail_filters _
      rw [filters, Filters.slot_setSlot]
    · intro entry done
      have done_eq : s.refiltered g i r q = done := by
        unfold State.refiltered State.finished State.emptied
        dsimp only [done, entry]
        rw [same_requester, result, same_tap, slot, own]
        rfl
      rw [done_eq] at passes
      refine ⟨fun worse => ?_, fun calm => ?_⟩
      · rw [passes, if_pos worse]
        exact State.inputChanged_recomputedTo _
      · rw [if_neg calm] at passes
        exact State.settledTo_of_channelTail passes
    · rw [← took, low]
      exact FilterRecord.evaluate_advancedTo ..
    · rw [← took, above]
      exact FilterRecord.evaluate_advancedTo ..
    · intro taken
      have valid_result : q = (r.takeValid n s.clock.seconds).evaluate s.params s.hours false := by
        rw [← took, valid, normal]
        rfl
      have advances {x : FilterRecord} (takes : r.takeValid n s.clock.seconds = x) :
          FilterRecord.AdvancedTo s.params s.hours false x q := by
        rw [valid_result, takes]
        exact FilterRecord.evaluate_advancedTo ..
      refine ⟨fun n0 based => advances ?_, fun unbased => ?_⟩
      · rw [FilterRecord.takeValid, based]
        rfl
      · intro learnt
        have learns : r.takeValid n s.clock.seconds = taken.learn n := by
          unfold FilterRecord.takeValid
          split
          · next based => cases unbased.symm.trans based
          · rfl
        refine ⟨fun few => advances (learns.trans (if_pos few)), fun enough => ?_⟩
        intro n0
        exact advances (learns.trans (if_neg (Nat.not_lt.2 enough)))

end Sys2Proof.Machine

/-! PROOFS. The reads of the host and their reports (R198, R200, R202). -/

namespace Sys2Proof.Machine

variable {s : State}

/-! ### The codes of R198 -/

theorem memberOf_of_codeOf {α : Type} [DecidableEq α] {members : List α} {x : α} {a : Byte} (listed : x ∈ members)
    (code : a.toNat = codeOf members x) : memberOf members a = some x := by
  rw [memberOf, code, codeOf, List.getElem?_idxOf listed]

theorem codeOf_channelStatus (x : ChannelStatus) :
    codeOf ChannelStatus.members x = match x with | .pending => 0 | .valid => 1 | .held => 2 | .invalid => 3 := by
  cases x <;> rfl

theorem enumByte_dSource (x : DSource) :
    enumByte DSource.members x =
      [match x with | .zero => 0 | .hold => 1 | .base => 2 | .setback => 3 | .boost => 4] := by
  cases x <;> rfl

theorem codeOf_tap (x : Tap) :
    codeOf Tap.members x = match x with | .flow => 0 | .supFilter => 1 | .extFilter => 2 | .exch => 3 := by
  cases x <;> rfl

theorem codeOf_requester (x : Requester) :
    codeOf Requester.members x = match x with | .frost => 0 | .trim => 1 | .filter => 2 | .link => 3 := by
  cases x <;> rfl

theorem codeOf_outcome (x : MeasureOutcome) :
    codeOf MeasureOutcome.members x = match x with | .valid => 0 | .overRange => 1 | .lowFlow => 2 := by
  cases x <;> rfl

theorem codeOf_stationState (x : StationState) :
    codeOf StationState.members x = match x with | .unconfigured => 0 | .seeking => 1 | .online => 2 | .lost => 3 := by
  cases x <;> rfl

theorem codeOf_indicator (x : Indicator) :
    codeOf Indicator.members x = match x with | .off => 0 | .steady => 1 | .slowBlink => 2 | .fastBlink => 3 := by
  cases x <;> rfl

theorem codeOf_stationKind (x : StationKind) :
    codeOf StationKind.members x = match x with | .room => 0 | .wet => 1 := by
  cases x <;> rfl

theorem codeOf_sourceState (x : SourceState) :
    codeOf SourceState.members x =
      match x with | .disarmed => 0 | .quiet => 1 | .rising => 2 | .deferred => 3 | .exhausted => 4 := by
  cases x <;> rfl

theorem codeOf_linkState (x : LinkState) :
    codeOf LinkState.members x =
      match x with | .none => 0 | .waiting => 1 | .inProgress => 2 | .done => 3 | .aborted => 4 := by
  cases x <;> rfl

theorem codeOf_abortCause (x : Option AbortCause) :
    codeOf AbortCause.members x = match x with | none => 0 | some .cancelled => 1 | some .standby => 2 := by
  rcases x with _ | _ | _ <;> rfl

theorem codeOf_filterState (x : FilterState) :
    codeOf FilterState.members x = match x with | .learning => 0 | .service => 1 | .due => 2 | .overdue => 3 := by
  cases x <;> rfl

theorem codeOf_grade (x : Grade) :
    codeOf Grade.members x = match x with | .coarse => 0 | .medium => 1 | .fine => 2 := by
  cases x <;> rfl

theorem codeOf_baselineOrigin (x : Option BaselineOrigin) :
    codeOf BaselineOrigin.members x = match x with | none => 0 | some .given => 1 | some .learnt => 2 := by
  rcases x with _ | _ | _ <;> rfl

theorem codeOf_stage (x : Stage) :
    codeOf Stage.members x = match x with | .clear => 0 | .watch => 1 | .limit => 2 | .cycle => 3 | .stop => 4 := by
  cases x <;> rfl

theorem codeOf_reason (x : Reason) :
    codeOf Reason.members x =
      match x with
      | .none => 0 | .mode => 1 | .margin => 2 | .ice => 3 | .saturated => 4 | .thawed => 5 | .cold => 6 | .iced => 7
      | .warmed => 8 | .retry => 9 | .outdoor => 10 := by
  cases x <;> rfl

theorem codeOf_fanState (x : FanState) :
    codeOf FanState.members x = match x with | .idle => 0 | .running => 1 | .faultRest => 2 | .locked => 3 := by
  cases x <;> rfl

theorem enumByte_origin (x : Origin) :
    enumByte Origin.members x =
      [match x with | .link => 0 | .station n => BitVec.ofNat 8 (n.val + 1) | .cooker => 7 | .humidity => 8] := by
  cases x with
  | station n => revert n; decide
  | _ => rfl

theorem enumByte_kind (x : Kind) :
    enumByte Kind.members x = [match x with | .hold => 0 | .boost => 1 | .setback => 2] := by
  cases x <;> rfl

/-! ### The fields of R198 -/

theorem temperatureField_eq (v : Option Int) :
    temperatureField v = match v with | some t => bytesOfInt 2 t | none => bytesOf 2 0x7FFF := by
  cases v <;> rfl

theorem quantityField_eq (k : Nat) (v : Option Nat) : quantityField k v = bytesOf k (v.getD (256 ^ k - 1)) := by
  cases v <;> rfl

theorem ratioField_eq (x : Option RatioResult) :
    ratioField x =
      match x with | none => bytesOf 2 0xFFFF | some .overRange => bytesOf 2 0xFFFE | some (.ratio n) => bytesOf 2 n := by
  rcases x with _ | _ | _ <;> rfl

/-! ### The reports' lengths (R200) -/

theorem State.resolutionReport_length (s : State) : s.resolutionReport.length = 20 := by
  simp [State.resolutionReport]

theorem Sensing.report_length (x : Sensing) : x.report.length = 31 := by
  simp [Sensing.report, Channel.temperatureBytes, Channel.rhBytes]

theorem State.stationReport_length (s : State) (n : StationId) : (s.stationReport n).length = 18 := by
  simp [State.stationReport]

theorem State.humidityReport_length (s : State) : s.humidityReport.length = 30 := by
  rw [State.humidityReport, List.length_append,
    length_flatMap_of_length _ 4 _ fun i => (s.humidity.source i).report_length]
  rfl

theorem State.measureReport_length (s : State) : s.measureReport.length = 15 := by
  unfold State.measureReport
  dsimp only
  split <;> simp

theorem State.tapReport_length (s : State) (x : Tap) : (s.tapReport x).length = 12 := by
  unfold State.tapReport
  split <;> simp

theorem State.calReport_length (s : State) (f : FanId) : (s.calReport f).length = 25 := by
  rw [State.calReport, List.length_append, length_flatMap_of_length _ 4 _ fun c => by simp, enumByte_length,
    Vector.length_toList]

theorem Frost.report_length (g : Frost) : g.report.length = 24 := by
  simp [Frost.report]

theorem State.fanReport_length (s : State) : s.fanReport.length = 32 := by
  simp [State.fanReport, State.fanBytes]

theorem DemandRecord.report_length (r : DemandRecord) (now : Nat) : (r.report now).length = 21 := by
  simp [DemandRecord.report]

/-! ### The reads -/

section
variable (answering : s.answering = true)
include answering

theorem exec_readResolution : exec .readResolution s = .next (s.respond .ok s.resolutionReport) := by
  change execReadResolution s = _
  rw [execReadResolution, hostCommand_of_answering answering]

theorem exec_readSensors : exec .readSensors s = .next (s.respond .ok s.sensing.report) := by
  change execReadSensors s = _
  rw [execReadSensors, hostCommand_of_answering answering]

theorem exec_readHumidity : exec .readHumidity s = .next (s.respond .ok s.humidityReport) := by
  change execReadHumidity s = _
  rw [execReadHumidity, hostCommand_of_answering answering]

theorem exec_readMeasure : exec .readMeasure s = .next (s.respond .ok s.measureReport) := by
  change execReadMeasure s = _
  rw [execReadMeasure, hostCommand_of_answering answering]

theorem exec_readFrost : exec .readFrost s = .next (s.respond .ok s.frost.report) := by
  change execReadFrost s = _
  rw [execReadFrost, hostCommand_of_answering answering]

theorem exec_readFans : exec .readFans s = .next (s.respond .ok s.fanReport) := by
  change execReadFans s = _
  rw [execReadFans, hostCommand_of_answering answering]

theorem exec_readNotices : exec .readNotices s = .next (s.respond .ok s.noticeReport) := by
  change execReadNotices s = _
  rw [execReadNotices, hostCommand_of_answering answering]

theorem exec_listDemands (position : Byte) :
    exec (.listDemands position) s = .next (s.respond .ok (s.demand.listing position.toNat)) := by
  change execListDemands position s = _
  rw [execListDemands, hostCommand_of_answering answering]

variable {a : Byte}

theorem exec_readStation_of_named {n : StationId} (named : a.toNat = n.val + 1) :
    exec (.readStation a) s = .next (s.respond .ok (s.stationReport n)) := by
  change execReadStation a s = _
  have station : stationOf a = some n := by
    rw [stationOf, dif_pos ⟨by omega, by omega⟩]
    exact congrArg some (Fin.ext (by show a.toNat - 1 = n.val; omega))
  rw [execReadStation, hostCommand_of_answering answering, station]

theorem exec_readStation_of_other (other : a.toNat = 0 ∨ 6 < a.toNat) :
    exec (.readStation a) s = .next (s.respond .badValue []) := by
  change execReadStation a s = _
  have station : stationOf a = none := dif_neg (by omega)
  rw [execReadStation, hostCommand_of_answering answering, station]
  rfl

theorem exec_readTap_of_named {x : Tap} (named : a.toNat = codeOf Tap.members x) :
    exec (.readTap a) s = .next (s.respond .ok (s.tapReport x)) := by
  change execReadTap a s = _
  rw [execReadTap, hostCommand_of_answering answering, memberOf_of_codeOf (by cases x <;> decide) named]

theorem exec_readTap_of_other (other : 4 ≤ a.toNat) : exec (.readTap a) s = .next (s.respond .badValue []) := by
  change execReadTap a s = _
  rw [execReadTap, hostCommand_of_answering answering, memberOf_eq_none (members := Tap.members) other]
  rfl

theorem exec_readFilter_of_named {i : FilterSlot} (named : a.toNat = codeOf FilterSlot.members i) :
    exec (.readFilter a) s = .next (s.respond .ok (s.filterReport i)) := by
  change execReadFilter a s = _
  rw [execReadFilter, hostCommand_of_answering answering, memberOf_of_codeOf (by cases i <;> decide) named]

theorem exec_readFilter_of_other (other : 2 ≤ a.toNat) : exec (.readFilter a) s = .next (s.respond .badValue []) := by
  change execReadFilter a s = _
  rw [execReadFilter, hostCommand_of_answering answering, memberOf_filterSlot_of_ge other]
  rfl

theorem exec_readCal_of_named {f : FanId} (named : a.toNat = codeOf fanMembers f) :
    exec (.readCal a) s = .next (s.respond .ok (s.calReport f)) := by
  change execReadCal a s = _
  rw [execReadCal, hostCommand_of_answering answering, memberOf_of_codeOf (by cases f <;> decide) named]

theorem exec_readCal_of_other (other : 2 ≤ a.toNat) : exec (.readCal a) s = .next (s.respond .badValue []) := by
  change execReadCal a s = _
  rw [execReadCal, hostCommand_of_answering answering, memberOf_eq_none (members := fanMembers) other]
  rfl

theorem exec_getParam_of_named {x : Param} (named : Param.ofIdent a = some x) :
    exec (.getParam a) s = .next (s.respond .ok (a :: bytesOfInt 4 (s.params.get x))) := by
  change execGetParam a s = _
  rw [execGetParam, hostCommand_of_answering answering, named]
  rfl

theorem exec_getParam_of_other (other : Param.ofIdent a = none) :
    exec (.getParam a) s = .next (s.respond .badValue []) := by
  change execGetParam a s = _
  rw [execGetParam, hostCommand_of_answering answering, other]
  rfl

theorem exec_readDemand_of_found {h : Half} {r : DemandRecord} (found : s.demand.find h = some r) :
    exec (.readDemand h) s = .next (s.respond .ok (r.report s.clock.seconds)) := by
  change execReadDemand h s = _
  rw [execReadDemand, hostCommand_of_answering answering, found]

theorem exec_readDemand_of_missing {h : Half} (missing : s.demand.find h = none) :
    exec (.readDemand h) s = .next (s.respond .noSuch []) := by
  change execReadDemand h s = _
  rw [execReadDemand, hostCommand_of_answering answering, missing]
  rfl

end

/-- R201: the identifiers of the parameters. -/
theorem Param.ofIdent_of_named {a : Byte} (least : 1 ≤ a.toNat) (most : a.toNat ≤ 49) : ∃ x, Param.ofIdent a = some x := by
  have row : a.toNat - 1 < paramTable.length := by
    show a.toNat - 1 < 49
    omega
  refine ⟨paramTable[a.toNat - 1].param, ?_⟩
  rw [Param.ofIdent, if_neg (by omega), List.getElem?_eq_getElem row, Option.map_some]

theorem Param.ofIdent_of_other {a : Byte} (other : a.toNat = 0 ∨ 49 < a.toNat) : Param.ofIdent a = none := by
  rw [Param.ofIdent]
  split
  · rfl
  · rw [List.getElem?_eq_none]
    · rfl
    · show 49 ≤ a.toNat - 1
      omega

end Sys2Proof.Machine

/-! PROOFS. The bytes of each report (R200, R202). -/

namespace Sys2Proof.Machine

variable {s : State}

theorem Channel.usable_eq_ite (c : Channel) :
    c.usable = if c.status = .valid ∨ c.status = .held then c.value else none := by
  unfold Channel.usable
  cases c.status <;> rfl

theorem pairMoisture_eq (x y : Channel) :
    pairMoisture x y = match x.usable, y.usable with | some t, some h => some (moisture t h) | _, _ => none := by
  unfold pairMoisture
  cases x.usable <;> cases y.usable <;> rfl

theorem State.filterRequested_eq (s : State) (i : FilterSlot) :
    s.filterRequested i = match s.pressure.filter with | some q => decide (q.slot = some i) | none => false := by
  rw [State.filterRequested]
  cases s.pressure.filter <;> rfl

theorem presses_field (x : Option (Byte × Byte)) (rest : List Byte) :
    packedField 1 (x.map (·.1.toNat)) ++ (packedField 1 (x.map (·.2.toNat)) ++ rest) =
      (match x with | some (short, long) => [short, long] | none => [0, 0]) ++ rest := by
  rcases x with _ | ⟨short, long⟩
  · rfl
  · show bytesOf 1 short.toNat ++ (bytesOf 1 long.toNat ++ rest) = _
    rw [bytesOf_one_toNat, bytesOf_one_toNat]
    rfl

theorem ages_field (x : Option Nat) (now : Nat) :
    packedField 4 (x.map (now - ·)) = bytesOf 4 (match x with | some t => now - t | none => 0) := by
  cases x <;> rfl

theorem taps_field (x : Option Tap) :
    (x.map (codeOf Tap.members)).getD 0 = match x with | some t => codeOf Tap.members t | none => 0 := by
  cases x <;> rfl

theorem results_field (x : Option Result) :
    packedField 1 (x.map Result.flags) = bytesOf 1 (match x with | some r => r.flags | none => 0) := by
  cases x <;> rfl

theorem counts_field (x : Option Flight) :
    packedField 1 (x.map Flight.count) = bytesOf 1 (match x with | some f => f.count | none => 0) := by
  cases x <;> rfl

theorem handle_field (x : Option DemandRecord) :
    (x.map DemandRecord.handle).getD 0 = match x with | some r => r.handle | none => 0 := by
  cases x <;> rfl

theorem Source.detail_eq (x : Source) :
    x.detail = match x.state with
      | .quiet => x.inhibit
      | .rising => x.level.getD 0 + 128 * x.run
      | .exhausted => x.run
      | .disarmed | .deferred => match x.baseline with | some b => b.toNat | none => 2047 := by
  unfold Source.detail
  cases x.state <;> cases x.baseline <;> rfl

theorem Phase.report_eq (x : Phase) :
    x.report = (match x with | .free => 0 | .select _ => 1 | .sample _ => 2) +
      match x.flight with
      | some f => 4 * codeOf Requester.members f.requester + 16 * codeOf Tap.members f.tap
      | none => 0 := by
  cases x with
  | free => rfl
  | _ => exact Nat.add_assoc _ _ _

theorem DriveSource.value_isSome (x : DriveSource) : x.value.isSome = decide (x ≠ .auto) := by
  cases x <;> rfl

theorem DriveSource.value_getD (x : DriveSource) (n : Nat) :
    x.value.getD n = match x with | .auto => n | .direct v => v := by
  cases x <;> rfl

theorem setOf_three : ∀ a b c : Bool, setOf [a, b, c] = bitAt 0 a + bitAt 1 b + bitAt 2 c := by decide

theorem four_mul_setOf_three : ∀ a b c : Bool, 4 * setOf [a, b, c] = bitAt 2 a + bitAt 3 b + bitAt 4 c := by decide

theorem setOf_four : ∀ a b c d : Bool, setOf [a, b, c, d] = bitAt 0 a + bitAt 1 b + bitAt 2 c + bitAt 3 d := by decide

theorem sixteen_mul_setOf_four : ∀ a b c d : Bool,
    16 * setOf [a, b, c, d] = bitAt 4 a + bitAt 5 b + bitAt 6 c + bitAt 7 d := by decide

/-- R202: the outstanding requests and the open gates in one byte. -/
theorem State.requests_and_gates (s : State) :
    setOf (Requester.members.map fun r => (s.pressure.request r).isSome) + 16 * setOf (Requester.members.map s.gateOpen) =
      bitAt 0 s.pressure.frost.isSome + bitAt 1 s.pressure.trim.isSome + bitAt 2 s.pressure.filter.isSome
        + bitAt 3 s.pressure.link.isSome + bitAt 4 (s.gateOpen .frost) + bitAt 5 (s.gateOpen .trim)
        + bitAt 6 (s.gateOpen .filter) + bitAt 7 (s.gateOpen .link) := by
  refine (congrArg₂ (· + ·) (setOf_four _ _ _ _) (sixteen_mul_setOf_four _ _ _ _)).trans ?_
  simp only [← Nat.add_assoc]
  rfl

theorem tag_field (x : Option Byte) (held : Bool) (rest : List Byte) :
    packedField 1 (x.map BitVec.toNat) ++ (bytesOf 1 (bitAt 0 held + bitAt 1 x.isSome) ++ rest) =
      [x.getD 0, (if held then 1 else 0) + if x.isSome then 2 else 0] ++ rest := by
  have tag : packedField 1 (x.map BitVec.toNat) = [x.getD 0] := by
    cases x with
    | none => rfl
    | some b => exact bytesOf_one_toNat b
  have flags : bytesOf 1 (bitAt 0 held + bitAt 1 x.isSome) = [(if held then 1 else 0) + if x.isSome then 2 else 0] := by
    cases held <;> cases x <;> rfl
  rw [tag, flags]
  rfl

theorem durationField_eq (x : Duration) :
    durationField x = bytesOf 2 (match x with | .absent => 0xFFFF | .indefinite => 0 | .minutes n => n) := by
  cases x <;> rfl

theorem historyReport_eq (x : List Requester) :
    historyReport x =
      match x with
      | [] => 0
      | [r] => 4 * codeOf Requester.members r + 16
      | o :: n :: _ => codeOf Requester.members o + 4 * codeOf Requester.members n + 32 := by
  rcases x with _ | ⟨_, _ | _⟩ <;> rfl

/-- Settles O8: each read answers with its report, whose fields are those of R202. -/
theorem readsAnswerTheirReports : Obligations.ReadsAnswerTheirReports := by
  intro s answering temp num flow bit status ratio tap who outcome flags values ofOrigin answers
  have answered {c : Instr} {n : Nat} {data report : List Byte} (run : exec c s = .next (s.respond .ok report))
      (length : report.length = n) (same : report = data) : answers c n data := by
    rw [← same]
    exact ⟨run, length⟩
  have flags_eq (r : Result) : r.flags = flags r := by
    dsimp only [flags]
    rw [Result.flags]
    cases r.body with
    | orifice => rfl
    | element o _ _ _ => exact congrArg (fun n => bitAt 0 r.overRange + 2 * n + _) (codeOf_outcome o)
  have values_eq (r : Result) (noPn : Nat) : r.values noPn = values r noPn := by
    dsimp only [values]
    rw [Result.values]
    cases r.body <;> rfl
  refine ⟨answered (exec_readResolution answering) s.resolutionReport_length ?_,
    answered (exec_readSensors answering) s.sensing.report_length ?_,
    fun a n named => answered (exec_readStation_of_named answering named) (s.stationReport_length n) ?_,
    answered (exec_readHumidity answering) s.humidityReport_length ?_,
    answered (exec_readMeasure answering) s.measureReport_length ?_,
    fun a x named => answered (exec_readTap_of_named answering (named.trans (codeOf_tap x).symm)) (s.tapReport_length x) ?_,
    fun a i named => answered (exec_readFilter_of_named answering (named.trans (by cases i <;> rfl)))
      (s.filterReport_length i) ?_,
    fun a f named => answered (exec_readCal_of_named answering (named.trans (by cases f <;> rfl))) (s.calReport_length f) ?_,
    answered (exec_readFrost answering) s.frost.report_length ?_,
    answered (exec_readFans answering) s.fanReport_length ?_,
    ⟨_, exec_readNotices answering, s.noticeReport_length⟩,
    fun a least most => ?_,
    fun h r found => answered (exec_readDemand_of_found answering found) (r.report_length _) ?_,
    fun a => (exec_listDemands answering a).trans ?_,
    fun h => exec_readDemand_of_missing answering,
    fun a => ⟨exec_readStation_of_other answering, exec_readTap_of_other answering, exec_readFilter_of_other answering,
      exec_readCal_of_other answering, fun other => exec_getParam_of_other answering (Param.ofIdent_of_other other)⟩⟩
  · unfold State.resolutionReport
    simp only [enumByte_mode, enumByte_dSource]
    rfl
  · unfold Sensing.report Channel.temperatureBytes Channel.rhBytes
    simp only [enumByte, codeOf_channelStatus, temperatureField_eq, quantityField_eq, Channel.usable_eq_ite,
      Sensing.dewPoint, Sensing.outdoorMoisture, Sensing.extractMoisture, pairMoisture_eq,
      List.flatMap_cons, List.flatMap_nil, List.append_nil, List.append_assoc]
    rfl
  · unfold State.stationReport
    simp only [enumByte, codeOf_channelStatus, codeOf_indicator, codeOf_stationState, funext codeOf_stationKind,
      temperatureField_eq, quantityField_eq, handle_field, List.append_assoc, presses_field]
    rfl
  · unfold State.humidityReport Source.report
    simp only [codeOf_sourceState, Source.detail_eq, handle_field]
    rfl
  · unfold State.measureReport
    simp only [codeOf_linkState, codeOf_abortCause, State.requests_and_gates, enumByte, codeOf_tap, codeOf_requester,
      Phase.report_eq, historyReport_eq, taps_field, results_field, counts_field, flags_eq, values_eq]
    rfl
  · rw [State.tapReport]
    cases s.pressure.entry x with
    | none => rw [enumByte, codeOf_tap] <;> rfl
    | some e =>
      dsimp only
      rw [enumByte, codeOf_tap, codeOf_requester, flags_eq, values_eq] <;> rfl
  · unfold State.filterReport
    cases s.filters.slot i with
    | none =>
      rw [State.filterReportOf, s.filterRequested_eq]
      rfl
    | some r =>
      rw [State.filterReportOf, s.filterRequested_eq, codeOf_filterState, codeOf_grade, codeOf_baselineOrigin, setOf_three,
        ages_field] <;> rfl
  · have code : memberOf fanMembers a = some f :=
      memberOf_of_codeOf (by cases f <;> decide) (named.trans (by cases f <;> rfl))
    rw [State.calReport, enumByte_of_memberOf (by decide) code]
    rfl
  · unfold Frost.report
    simp only [codeOf_stage, enumByte, codeOf_reason, temperatureField_eq, ratioField_eq, four_mul_setOf_three,
      ← Nat.add_assoc]
    rfl
  · unfold State.fanReport State.fanBytes
    simp only [codeOf_fanState, quantityField_eq, State.requestedPreheat, DriveSource.value_isSome, DriveSource.value_getD,
      List.append_assoc]
    rfl
  · obtain ⟨x, named⟩ := Param.ofIdent_of_named least most
    exact ⟨x, named, exec_getParam_of_named answering named, by rw [List.length_cons, bytesOfInt_length]⟩
  · rw [DemandRecord.report, DemandTable.handle_of_find found]
    simp only [enumByte_origin, enumByte_kind, quantityField_eq, durationField_eq, List.append_assoc, tag_field]
    rfl
  · rw [DemandTable.listing, List.length_take, List.length_drop]

end Sys2Proof.Machine
